-- ==== Sys2Proof/Word.lean ====
section
/-! DEFINITION. The word types of the block: every value is an unsigned integer of a stated width
(00_scope.md R7). -/

namespace Sys2Proof

/-- `u8` of 00_scope.md R7: a byte of the stream, the payload buffer or the replay buffer. -/
abbrev U8 := BitVec 8

/-- `u16` of 00_scope.md R7: a length, a checksum, a payload index, a length-table key. -/
abbrev U16 := BitVec 16

/-- The 13-bit dispatch word `D = F ++ STATE ++ V` (30_encoding.md R89). -/
abbrev DispatchWord := BitVec 13

end Sys2Proof
end

