-- ==== Sys2Proof/Config.lean ====
section
/-! DEFINITION. What is fixed for one block (00_scope.md R6): the constants the spec fixes, and the two
open parameters that are wired, POS_W and LENTAB, as plain data (assumption 3). The third open parameter,
MAXLEN, is loaded by RESET and is a register of the state (10_state.md R32). -/

namespace Sys2Proof

/-- The wired configuration of one block.  The spec passes it to the step relation as an argument
(00_scope.md R10); the state carries it because the host's step has the state as its only argument
(assumption 1). -/
structure Config where
  /-- POS_W, the width of POS in bits: an open parameter, default 32 (00_scope.md R6, D11). -/
  posW : Nat
  /-- LENTAB as a list of (key, expected length), the key being `class ++ id`; a key with no entry answers
  `none` (20_memory.md R54).  Every total function from keys to optional lengths has such a list. -/
  lentab : List (U16 × U16)
  deriving DecidableEq, Repr

namespace Config

/-- PAY_CAP, the capacity of PAY in bytes (00_scope.md R6). -/
abbrev payCap : Nat := 65535

/-- The source's default of `maxPayloadLength` (10_state.md R38). -/
abbrev defaultMaxlen : U16 := 300

/-- The wiring of `State.reset`: POS_W at its default and no length table, which is legal
(70_reset_and_hazards.md R233; assumption 3). -/
def default : Config where
  posW := 32
  lentab := []

end Config
end Sys2Proof
end

