-- ==== Sys2Proof/Syntax.lean ====
section
/-! DEFINITION. The 22 operations of the block, one constructor for each row of spec/opcode_table.json, in the
table's order (30_encoding.md R90).  The operand of a byte operation is the consumed byte. -/

namespace Sys2Proof

/-- The operations of 30_encoding.md R90.  Rows 14 to 21 are sub-operations: they run inside their parent,
consume no symbol and have no encoding of their own (R95). -/
inductive Instr where
  /-- FLUSH, the symbol `Flush` (45_control.md R180). -/
  | flush
  /-- SCAN.SYNC1, byte 0xB5 while idle (40_scanner.md R112). -/
  | scanSync1
  /-- SCAN.SKIP, any other byte while idle (R111). -/
  | scanSkip (v : U8)
  /-- TRL.SYNC2, byte 0x62 while expecting the trailer (R113). -/
  | trlSync2
  /-- TRL.REPEAT, byte 0xB5 while expecting the trailer (R114). -/
  | trlRepeat
  /-- TRL.ABORT, any other byte while expecting the trailer (R115). -/
  | trlAbort (v : U8)
  /-- FLD.CLASS (41_field_assembler.md R120). -/
  | fldClass (v : U8)
  /-- FLD.ID (R121). -/
  | fldId (v : U8)
  /-- FLD.LENLO (R122). -/
  | fldLenlo (v : U8)
  /-- FLD.LENHI, which runs one of V.TOOLARGE, V.POLL, V.WRONGLEN, V.ACCEPT (R123). -/
  | fldLenhi (v : U8)
  /-- FLD.PAY (R124). -/
  | fldPay (v : U8)
  /-- FLD.CKLO (R125). -/
  | fldCklo (v : U8)
  /-- FLD.CKHI, which runs one of CK.PACKET, CK.POLL, CK.MISMATCH (R126). -/
  | fldCkhi (v : U8)
  /-- V.TOOLARGE, inside FLD.LENHI (42_validator.md R137). -/
  | vTooLarge
  /-- V.POLL, inside FLD.LENHI (R138). -/
  | vPoll
  /-- V.WRONGLEN(e), inside FLD.LENHI; `e` is the length table's answer (R136, R139). -/
  | vWrongLen (e : U16)
  /-- V.ACCEPT, inside FLD.LENHI (R140). -/
  | vAccept
  /-- CK.PACKET, inside FLD.CKHI (43_checksum.md R155). -/
  | ckPacket
  /-- CK.POLL, inside FLD.CKHI (R156). -/
  | ckPoll
  /-- CK.MISMATCH, inside FLD.CKHI (R157). -/
  | ckMismatch
  /-- REINJECT, inside CK.MISMATCH (44_recovery.md R166). -/
  | reinject
  /-- RESET, the reset pin; `cfg` is the value on `cfg_maxlen` (45_control.md R181, R182). -/
  | reset (cfg : U16)
  deriving DecidableEq, Repr

/-- The mnemonic of 30_encoding.md R90, as spec/opcode_table.json spells it. -/
def Instr.mnemonic : Instr → String
  | .flush => "FLUSH"
  | .scanSync1 => "SCAN.SYNC1"
  | .scanSkip _ => "SCAN.SKIP"
  | .trlSync2 => "TRL.SYNC2"
  | .trlRepeat => "TRL.REPEAT"
  | .trlAbort _ => "TRL.ABORT"
  | .fldClass _ => "FLD.CLASS"
  | .fldId _ => "FLD.ID"
  | .fldLenlo _ => "FLD.LENLO"
  | .fldLenhi _ => "FLD.LENHI"
  | .fldPay _ => "FLD.PAY"
  | .fldCklo _ => "FLD.CKLO"
  | .fldCkhi _ => "FLD.CKHI"
  | .vTooLarge => "V.TOOLARGE"
  | .vPoll => "V.POLL"
  | .vWrongLen _ => "V.WRONGLEN"
  | .vAccept => "V.ACCEPT"
  | .ckPacket => "CK.PACKET"
  | .ckPoll => "CK.POLL"
  | .ckMismatch => "CK.MISMATCH"
  | .reinject => "REINJECT"
  | .reset _ => "RESET"

end Sys2Proof
end

