-- ==== Sys2Proof/WellFormed.lean ====
section
/-! DEFINITION. Which operand values an operation may carry.  Only two operations restrict their byte: SCAN.SKIP
and TRL.ABORT take the bytes their neighbours do not (40_scanner.md R111, R115). -/

namespace Sys2Proof

/-- `i.wf` says that the operand of `i` is one its rule admits. -/
def Instr.wf : Instr → Bool
  | .scanSkip v => v != 0xB5
  | .trlAbort v => v != 0x62 && v != 0xB5
  | .flush | .scanSync1 | .trlSync2 | .trlRepeat => true
  | .fldClass _ | .fldId _ | .fldLenlo _ | .fldLenhi _ | .fldPay _ | .fldCklo _ | .fldCkhi _ => true
  | .vTooLarge | .vPoll | .vWrongLen _ | .vAccept => true
  | .ckPacket | .ckPoll | .ckMismatch | .reinject => true
  | .reset _ => true

end Sys2Proof
end

