-- ==== Sys2Proof/Decode.lean ====
section
/-! DEFINITION. The dispatch word and the operation map as a first-match table (30_encoding.md R89, R90), the decoder
over it, and the encoder. -/

namespace Sys2Proof

/-- A row of the operation map that the dispatch word selects (rows 1 to 13 of 30_encoding.md R90). -/
structure OpRow where
  mnemonic : String
  mask : DispatchWord
  pat : DispatchWord
  /-- The operation, given the V field of the word. -/
  build : U8 → Instr

/-- Rows 1 to 13 of 30_encoding.md R90, in the table's order; rows 14 to 21 have no encoding of their own and
row 22 is selected by the reset pin. -/
def opRows : List OpRow :=
  [ ⟨"FLUSH", 0x1000, 0x1000, fun _ => .flush⟩,
    ⟨"SCAN.SYNC1", 0x1FFF, 0x00B5, fun _ => .scanSync1⟩,
    ⟨"SCAN.SKIP", 0x1F00, 0x0000, .scanSkip⟩,
    ⟨"TRL.SYNC2", 0x1FFF, 0x0162, fun _ => .trlSync2⟩,
    ⟨"TRL.REPEAT", 0x1FFF, 0x01B5, fun _ => .trlRepeat⟩,
    ⟨"TRL.ABORT", 0x1F00, 0x0100, .trlAbort⟩,
    ⟨"FLD.CLASS", 0x1F00, 0x0200, .fldClass⟩,
    ⟨"FLD.ID", 0x1F00, 0x0300, .fldId⟩,
    ⟨"FLD.LENLO", 0x1F00, 0x0400, .fldLenlo⟩,
    ⟨"FLD.LENHI", 0x1F00, 0x0500, .fldLenhi⟩,
    ⟨"FLD.PAY", 0x1F00, 0x0600, .fldPay⟩,
    ⟨"FLD.CKLO", 0x1F00, 0x0700, .fldCklo⟩,
    ⟨"FLD.CKHI", 0x1F00, 0x0800, .fldCkhi⟩ ]

/-- `D[7:0]`, the byte value. -/
def vField (d : DispatchWord) : U8 := d.extractLsb' 0 8

/-- `D[11:8]`, the code of STATE before the step. -/
def stateField (d : DispatchWord) : BitVec 4 := d.extractLsb' 8 4

/-- `D[12]`, true for the symbol `Flush`. -/
def flushField (d : DispatchWord) : Bool := d.getLsbD 12

/-- `D = F ++ STATE ++ V` (30_encoding.md R89). -/
def dispatch (f : BitVec 1) (code : BitVec 4) (v : U8) : DispatchWord := f ++ code ++ v

/-- Why a number is no dispatch word of the map. -/
inductive DecodeError where
  /-- The number has more than the 13 bits of R89 (assumption 12). -/
  | notADispatchWord
  /-- F = 0 and a STATE code of 9 to 15: reserved and unreachable (30_encoding.md R92, 93_implementation_defined.md U2). -/
  | reservedState (code : BitVec 4)
  deriving DecidableEq, Repr

/-- The first row of a table whose mask and pattern match, applied to the word's byte. -/
def firstMatch : List OpRow → DispatchWord → Option Instr
  | [], _ => none
  | r :: rows, d => if d &&& r.mask = r.pat then some (r.build (vField d)) else firstMatch rows d

/-- The operation a dispatch word selects (30_encoding.md R89), or why it selects none. -/
def decodeWord (d : DispatchWord) : Except DecodeError Instr :=
  match firstMatch opRows d with
  | some i => .ok i
  | none => .error (.reservedState (stateField d))

/-- The decoder on any number: a number of more than 13 bits is no dispatch word. -/
def decode (w : Nat) : Except DecodeError Instr :=
  if w < 2 ^ 13 then decodeWord (BitVec.ofNat 13 w) else .error .notADispatchWord

/-- The dispatch word of an operation, from 30_encoding.md R88 to R90.  FLUSH's row leaves STATE and V open and is
written with zeros (U13); the sub-operations and RESET have no word of their own (R95, R90). -/
def encode : Instr → Option DispatchWord
  | .flush => some (dispatch 1 0 0)
  | .scanSync1 => some (dispatch 0 0 0xB5)
  | .scanSkip v => some (dispatch 0 0 v)
  | .trlSync2 => some (dispatch 0 1 0x62)
  | .trlRepeat => some (dispatch 0 1 0xB5)
  | .trlAbort v => some (dispatch 0 1 v)
  | .fldClass v => some (dispatch 0 2 v)
  | .fldId v => some (dispatch 0 3 v)
  | .fldLenlo v => some (dispatch 0 4 v)
  | .fldLenhi v => some (dispatch 0 5 v)
  | .fldPay v => some (dispatch 0 6 v)
  | .fldCklo v => some (dispatch 0 7 v)
  | .fldCkhi v => some (dispatch 0 8 v)
  | .vTooLarge | .vPoll | .vWrongLen _ | .vAccept => none
  | .ckPacket | .ckPoll | .ckMismatch | .reinject => none
  | .reset _ => none

/-- The host's decoder entry: a row's word is the 13-bit dispatch word, so the width it is given in whole bytes (16)
adds only zero bits.  A sub-operation's row has its parent's word and decodes to the parent (30_encoding.md R95). -/
def decodeTableWord (_nbits w : Nat) : Option Instr :=
  match decode w with
  | .ok i => some i
  | .error _ => none

end Sys2Proof
end

