-- ==== Sys2Proof/Machine/State.lean ====
section
/-! DEFINITION. The state of the block as plain data: the thirteen items of 10_state.md R20, and beside them what the
step relation of 00_scope.md R10 takes and gives besides the state (the input symbols, the reset pin, the wired
configuration, the event of the step), carried here because the host's step has the state as its only argument
and result (assumptions 1, 2). -/

namespace Sys2Proof.Machine

open Sys2Proof

/-- STATE: exactly these nine values (10_state.md R21; codes 0 to 8 in this order, 30_encoding.md R88). -/
inductive DecState where
  | scanningForSync
  | expectSyncTrailer
  | expectClass
  | expectId
  | expectLengthLow
  | expectLengthHigh
  | accumulatingPayload
  | expectChecksumLow
  | expectChecksumHigh
  deriving DecidableEq, Repr

/-- An input symbol (00_scope.md R9). -/
inductive Symbol where
  | byte (v : U8)
  | flush
  deriving DecidableEq, Repr

/-- The frame snapshot that every diagnostic event carries (10_state.md R43). -/
structure Snapshot where
  cls : U8
  id : U8
  length : U16
  payload : Option (List U8)
  receivedChecksum : U16
  deriving DecidableEq, Repr

/-- The five outputs of the block (60_exceptions.md R190). -/
inductive Event where
  /-- Channel A: a decoded packet (R191). -/
  | packet (cls id : U8) (payload : List U8)
  /-- Channel B: a frame of length 0 whose checksum matches (R192). -/
  | pollingMessage (frame : Snapshot)
  /-- Channel B: the declared length exceeds MAXLEN (R193). -/
  | payloadTooLarge (frame : Snapshot) (maxPayloadLength : U16)
  /-- Channel B: the declared length differs from the length table's (R194). -/
  | wrongPayloadLength (frame : Snapshot) (expectedLength : U16)
  /-- Channel B: the checksum does not match (R195). -/
  | failedChecksum (frame : Snapshot) (computedChecksum : U16)
  deriving DecidableEq, Repr

/-- The payload buffer as address and byte pairs, addresses strictly rising, no entry equal to `payBlank`. -/
abbrev Memory := List Host.Cell

/-- What a byte of PAY that nothing has written reads as.  The spec leaves it open and unobservable (10_state.md R28,
93_implementation_defined.md U1): DESIGN CHOICE, unsafe, assumption 5. -/
def payBlank : U8 := 0

/-- The whole state. -/
structure State where
  /-- STATE, the sequencing register (10_state.md R21). -/
  st : DecState
  /-- CLS, the class byte (R23). -/
  cls : U8
  /-- ID, the id byte (R24). -/
  id : U8
  /-- LEN, the declared payload length (R25). -/
  len : U16
  /-- RXCK, the received checksum (R26). -/
  rxck : U16
  /-- PWP, the payload write position (R27). -/
  pwp : U16
  /-- PAYV, "the payload is present" (R28). -/
  payv : Bool
  /-- PAY, the payload buffer, indices 0 to 65534 (R28, 20_memory.md R52). -/
  pay : Memory
  /-- CKA, the running sum `a` (R29). -/
  cka : U8
  /-- CKB, the running sum `b` (R29). -/
  ckb : U8
  /-- REPLAY, the re-injected bytes not yet consumed again, front first (R30). -/
  replay : List U8
  /-- POS, the stream-position counter, kept below 2^POS_W (R31, assumption 16). -/
  pos : Nat
  /-- MAXLEN, the configuration register (R32). -/
  maxlen : U16
  /-- The event port: what the last step emitted, `none` where it emitted nothing (00_scope.md R10, 60_exceptions.md R190;
  assumption 2). -/
  event : Option Event
  /-- IN, the input symbols not yet taken, next one first (20_memory.md R51; assumption 1). -/
  inputs : List Symbol
  /-- The reset pin, one entry for each coming step: `some cfg` while it is asserted with `cfg` on `cfg_maxlen`, `none` while
  it is released; after the last entry it stays released (45_control.md R181; assumption 9). -/
  resetPin : List (Option U16)
  /-- The wired configuration (00_scope.md R10; assumptions 1, 3). -/
  config : Config
  deriving DecidableEq, Repr

/-- Why a step can stop with a fault: never, so there is no value (00_scope.md R10, 60_exceptions.md R204). -/
inductive Fault : Type
  deriving DecidableEq, Repr

/-- Why a step can refuse. -/
inductive Refusal where
  /-- Answered by an arm of `exec` whose instruction has no meaning yet; no arm does.  Safe. -/
  | notModelled (mnemonic : String)
  deriving DecidableEq, Repr

/-- The machine right after reset (10_state.md R38): MAXLEN at the value for a host that configures nothing, no symbol
presented yet, the pin released. -/
def State.reset : State where
  st := .scanningForSync
  cls := 0
  id := 0
  len := 0
  rxck := 0
  pwp := 0
  payv := false
  pay := []
  cka := 0
  ckb := 0
  replay := []
  pos := 0
  maxlen := Config.defaultMaxlen
  event := none
  inputs := []
  resetPin := []
  config := Config.default

end Sys2Proof.Machine
end

