-- ==== Sys2Proof/Machine/Operands.lean ====
section
/-! DEFINITION. Bytes and 16-bit values: the slices and the little-endian combination (20_memory.md R55, R57;
30_encoding.md R83, R84). -/

namespace Sys2Proof.Machine

open Sys2Proof

/-- `x[7:0]`. -/
def lo (x : U16) : U8 := x.extractLsb' 0 8

/-- `x[15:8]`. -/
def hi (x : U16) : U8 := x.extractLsb' 8 8

/-- `high ++ low`: the byte received first is the less significant (20_memory.md R55). -/
def combine (low high : U8) : U16 := high ++ low

/-- `x[7:0] <- v`, the other bits unchanged (00_scope.md R8). -/
def setLo (x : U16) (v : U8) : U16 := combine v (hi x)

/-- `x[15:8] <- v`, the other bits unchanged. -/
def setHi (x : U16) (v : U8) : U16 := combine (lo x) v

/-- The length-table key `class ++ id` (20_memory.md R54, 30_encoding.md R85). -/
def tableKey (cls id : U8) : U16 := cls ++ id

end Sys2Proof.Machine
end

