-- ==== Sys2Proof/Machine/Ops.lean ====
section
/-! DEFINITION. The named operations every meaning is built from: the payload buffer, the length table, the checksum
step, the byte source, the stream position, the snapshot, raising an event and ending a frame, re-injection. -/

namespace Sys2Proof.Machine

open Sys2Proof

/-! ### The payload buffer (20_memory.md R52) -/

namespace Memory

/-- The canonical form: addresses strictly rising, each an index PAY has, no entry equal to what an unlisted one reads as. -/
abbrev wf (m : Memory) : Prop :=
  m.Pairwise (fun c d => c.1 < d.1) ∧ ∀ c ∈ m, c.1 < Config.payCap ∧ c.2 ≠ payBlank

/-- `MemRead(PAY, a, 1)` (00_scope.md R8). -/
def read : Memory → Nat → U8
  | [], _ => payBlank
  | (k, b) :: rest, a => if a = k then b else read rest a

/-- The list with the byte at `a` replaced, keeping the canonical form. -/
def write : Memory → Nat → U8 → Memory
  | [], a, v => if v = payBlank then [] else [(a, v)]
  | (k, b) :: rest, a, v =>
    if a < k then (if v = payBlank then (k, b) :: rest else (a, v) :: (k, b) :: rest)
    else if a = k then (if v = payBlank then rest else (a, v) :: rest)
    else (k, b) :: write rest a v

/-- `MemWrite(PAY, a, 1, v)` (00_scope.md R8): PAY has the indices below `payCap` only, and a store at any other changes nothing
(assumption 7). -/
def store (m : Memory) (a : Nat) (v : U8) : Memory := if a < Config.payCap then write m a v else m

/-- `PAY[0 .. n-1]`, in ascending order. -/
def prefixBytes (m : Memory) (n : Nat) : List U8 := (List.range n).map (read m)

end Memory

/-! ### The length table (20_memory.md R54) -/

/-- The answer of a table for a key: its first entry for the key, `none` where it has none. -/
def lookupKey : List (U16 × U16) → U16 → Option U16
  | [], _ => none
  | (k, e) :: rest, key => if key = k then some e else lookupKey rest key

/-- `Lookup(c, i)` of 00_scope.md R8. -/
def lookup (c : Config) (cls id : U8) : Option U16 := lookupKey c.lentab (tableKey cls id)

/-! ### The checksum (43_checksum.md R150, R151) -/

/-- One byte of the two sums modulo 256; the second uses the new first (R150). -/
def accStep (ab : U8 × U8) (v : U8) : U8 × U8 := (ab.1 + v, ab.2 + (ab.1 + v))

/-- `ck(s)` of R150, from the starting values 0 (R159; assumption 14). -/
def ck (s : List U8) : U8 × U8 := s.foldl accStep (0, 0)

/-- `(b << 8) | a` (R150). -/
def fletcher16 (s : List U8) : U16 := combine (ck s).1 (ck s).2

/-- `acc(v)` of R151 on the accumulators. -/
def acc (v : U8) (s : State) : State :=
  let ab := accStep (s.cka, s.ckb) v
  { s with cka := ab.1, ckb := ab.2 }

/-! ### The stream position (10_state.md R31) -/

/-- The modulus of POS, 2^POS_W. -/
def posMod (c : Config) : Nat := 2 ^ c.posW

/-- `POS <- POS + 1 (mod 2^POS_W)` (20_memory.md R68). -/
def advancePos (s : State) : State :=
  { s with pos := (s.pos + 1) % posMod s.config }

/-- `POS <- POS - n (mod 2^POS_W)` (44_recovery.md R166, R167). -/
def rewindPos (n : Nat) (s : State) : State :=
  let m := posMod s.config
  { s with pos := (s.pos + (m - n % m)) % m }

/-! ### The codes of STATE and the dispatch word (30_encoding.md R88, R89) -/

/-- The 4-bit code of a STATE value. -/
def DecState.code : DecState → BitVec 4
  | .scanningForSync => 0
  | .expectSyncTrailer => 1
  | .expectClass => 2
  | .expectId => 3
  | .expectLengthLow => 4
  | .expectLengthHigh => 5
  | .accumulatingPayload => 6
  | .expectChecksumLow => 7
  | .expectChecksumHigh => 8

/-- The STATE value with a code; 9 to 15 are reserved (R92). -/
def DecState.ofCode (c : BitVec 4) : Option DecState :=
  match c.toNat with
  | 0 => some .scanningForSync
  | 1 => some .expectSyncTrailer
  | 2 => some .expectClass
  | 3 => some .expectId
  | 4 => some .expectLengthLow
  | 5 => some .expectLengthHigh
  | 6 => some .accumulatingPayload
  | 7 => some .expectChecksumLow
  | 8 => some .expectChecksumHigh
  | _ => none

/-- The dispatch word of a symbol in a STATE (R89). -/
def dispatchWord (x : Symbol) (st : DecState) : DispatchWord :=
  match x with
  | .flush => dispatch 1 st.code 0
  | .byte v => dispatch 0 st.code v

/-! ### The byte source (20_memory.md R68) -/

/-- `in_ready`: the input port takes a symbol only while REPLAY is empty (44_recovery.md R175, D1). -/
def inReady (s : State) : Bool := s.replay.isEmpty

/-- The symbol of the step and the state with it taken: from REPLAY while it is not empty, else the next of IN; `none`
while neither holds one. -/
def takeSymbol (s : State) : Option (Symbol × State) :=
  match s.replay, s.inputs with
  | v :: rest, _ => some (.byte v, { s with replay := rest })
  | [], x :: rest => some (x, { s with inputs := rest })
  | [], [] => none

/-- Every byte is counted, `Flush` is not (R68). -/
def countSymbol (x : Symbol) (s : State) : State :=
  match x with
  | .byte _ => advancePos s
  | .flush => s

/-- What the reset pin shows in the coming step. -/
def pinNow (s : State) : Option U16 := s.resetPin.head?.join

/-- The start of every step: the event port is cleared, since an event is delivered in the step that produces it
(20_memory.md R70), and the pin's schedule moves on. -/
def beginStep (s : State) : State := { s with event := none, resetPin := s.resetPin.tail }

/-! ### Frames and events (10_state.md R36, R43; 60_exceptions.md R201) -/

/-- `frame_reset()` of 10_state.md R36; PAY's contents are left as they are. -/
def frameReset (s : State) : State :=
  { s with cls := 0, id := 0, len := 0, rxck := 0, pwp := 0, payv := false, cka := 0, ckb := 0 }

/-- The payload as 10_state.md R28 would have a model hold it: absent, or the bytes written so far. -/
def payload (s : State) : Option (List U8) :=
  if s.payv then some (Memory.prefixBytes s.pay s.pwp.toNat) else none

/-- `snap()` of 10_state.md R43. -/
def snap (s : State) : Snapshot where
  cls := s.cls
  id := s.id
  length := s.len
  payload := payload s
  receivedChecksum := s.rxck

/-- `emit E(info)` of 00_scope.md R8. -/
def emit (e : Event) (s : State) : State := { s with event := some e }

/-- Every terminal transition: `frame_reset(); STATE <- ScanningForSync` (60_exceptions.md R201, step 3). -/
def endFrame (s : State) : State := { frameReset s with st := .scanningForSync }

/-- Raising an event, the block's only exception entry (60_exceptions.md R201): the record has been read from the state by the
caller and leaves through the port, then the frame ends.  There is no return from it (R202). -/
def raise (e : Event) (s : State) : State := endFrame (emit e s)

/-- The payload buffer becomes present and empty: `PAYV <- 1; PWP <- 0` (41_field_assembler.md R127). -/
def allocatePayload (s : State) : State := { s with payv := true, pwp := 0 }

/-! ### Recovery (44_recovery.md R165, R166) -/

/-- The header bytes as the registers hold them. -/
def headerBytes (s : State) : List U8 := [s.cls, s.id, lo s.len, hi s.len]

/-- The reconstructed body of the frame (R165). -/
def frameBody (s : State) : List U8 :=
  headerBytes s ++ Memory.prefixBytes s.pay s.len.toNat ++ [lo s.rxck, hi s.rxck]

/-- `reinject(seq)` of R166: `seq` in front of REPLAY, POS back by its length. -/
def reinjectBytes (seq : List U8) (s : State) : State :=
  rewindPos seq.length { s with replay := seq ++ s.replay }

end Sys2Proof.Machine
end

