-- ==== Sys2Proof/Machine/Flags.lean ====
section
/-! DEFINITION. The five predicates a step computes and consumes (10_state.md R33), and the two decisions made of them
(42_validator.md R136, 43_checksum.md R154); the block stores no flag. -/

namespace Sys2Proof.Machine

open Sys2Proof

/-- `too_large`, an unsigned comparison. -/
def tooLarge (s : State) : Bool := s.maxlen != 0 && s.maxlen.ult s.len

/-- `is_poll`. -/
def isPoll (s : State) : Bool := s.len == 0

/-- `wrong_len`: the length table's answer where it has one and LEN differs from it. -/
def wrongLen (s : State) : Option U16 :=
  match lookup s.config s.cls s.id with
  | some e => if s.len = e then none else some e
  | none => none

/-- `COMP = CKB ++ CKA` (43_checksum.md R153). -/
def computedChecksum (s : State) : U16 := combine s.cka s.ckb

/-- `ck_match`, one 16-bit equality (43_checksum.md R154). -/
def ckMatch (s : State) : Bool := computedChecksum s == s.rxck

/-- `pay_done`, tested on the PWP before the write (41_field_assembler.md R124). -/
def payDone (s : State) : Bool := s.pwp.toNat + 1 == s.len.toNat

/-- The validator's verdicts (42_validator.md R136). -/
inductive Verdict where
  | tooLarge
  | poll
  | wrongLen (e : U16)
  | accept
  deriving DecidableEq, Repr

/-- The decision order of 42_validator.md R136, on the complete LEN. -/
def verdict (s : State) : Verdict :=
  if tooLarge s then .tooLarge
  else if isPoll s then .poll
  else match wrongLen s with
    | some e => .wrongLen e
    | none => .accept

/-- The outcomes of the comparison (43_checksum.md R154). -/
inductive CkOutcome where
  | packet
  | poll
  | mismatch
  deriving DecidableEq, Repr

/-- The outcome of the comparison, on the complete RXCK. -/
def ckOutcome (s : State) : CkOutcome :=
  if ckMatch s then (if isPoll s then .poll else .packet) else .mismatch

/-- The largest length the validator can approve, LMAX (42_validator.md R143). -/
def lmax (maxlen : U16) : Nat := if maxlen = 0 then 65535 else maxlen.toNat

/-- The capacity of REPLAY, REPLAY_CAP (00_scope.md R6). -/
def replayCap (maxlen : U16) : Nat := lmax maxlen + 6

end Sys2Proof.Machine
end

