-- ==== Sys2Proof/Machine/Recovery.lean ====
section
/-! DEFINITION. The frame-recovery injector (44_recovery.md). -/

namespace Sys2Proof.Machine

open Sys2Proof

/-- REINJECT (R166): the body of the frame, read from the registers, goes in front of REPLAY and POS goes back by its length. -/
def execReinject (s : State) : Host.Outcome State Fault Refusal :=
  .next (reinjectBytes (frameBody s) s)

end Sys2Proof.Machine
end

