-- ==== Sys2Proof/Machine/Checksum.lean ====
section
/-! DEFINITION. The three outcomes of the checksum comparison (43_checksum.md), which run inside FLD.CKHI on the complete RXCK
(assumption 10). -/

namespace Sys2Proof.Machine

open Sys2Proof

/-- CK.PACKET (R155): deliver the packet, end the frame. -/
def execCkPacket (s : State) : Host.Outcome State Fault Refusal :=
  .next (raise (.packet s.cls s.id (Memory.prefixBytes s.pay s.len.toNat)) s)

/-- CK.POLL (R156): report the polling frame, end it. -/
def execCkPoll (s : State) : Host.Outcome State Fault Refusal :=
  .next (raise (.pollingMessage (snap s)) s)

/-- CK.MISMATCH (R157): the report and the body are read before the frame ends, and REINJECT runs between
(60_exceptions.md R201). -/
def execCkMismatch (s : State) : Host.Outcome State Fault Refusal :=
  match execReinject s with
  | .next t => .next (raise (.failedChecksum (snap s) (computedChecksum s)) t)
  | .fault r => .fault r
  | .refused r => .refused r

end Sys2Proof.Machine
end

