-- ==== Sys2Proof/Machine/Validator.lean ====
section
/-! DEFINITION. The payload-length validator's four verdicts (42_validator.md), which run inside FLD.LENHI on the complete LEN
(assumption 10). -/

namespace Sys2Proof.Machine

open Sys2Proof

/-- V.TOOLARGE (R137): report the length and the maximum, end the frame; no backtracking. -/
def execVTooLarge (s : State) : Host.Outcome State Fault Refusal :=
  .next (raise (.payloadTooLarge (snap s) s.maxlen) s)

/-- V.POLL (R138): the payload is present and empty, the checksum is next. -/
def execVPoll (s : State) : Host.Outcome State Fault Refusal :=
  .next { allocatePayload s with st := .expectChecksumLow }

/-- V.WRONGLEN(e) (R139): report the length and the table's, end the frame; no backtracking. -/
def execVWrongLen (e : U16) (s : State) : Host.Outcome State Fault Refusal :=
  .next (raise (.wrongPayloadLength (snap s) e) s)

/-- V.ACCEPT (R140): the payload buffer is allocated and filled next. -/
def execVAccept (s : State) : Host.Outcome State Fault Refusal :=
  .next { allocatePayload s with st := .accumulatingPayload }

end Sys2Proof.Machine
end

