-- ==== Sys2Proof/Machine/Assembler.lean ====
section
/-! DEFINITION. The frame-field assembler (41_field_assembler.md).  In these states the operation is selected by STATE alone and
every byte is data. -/

namespace Sys2Proof.Machine

open Sys2Proof

/-- FLD.CLASS (R120): `CLS <- v; acc(v); STATE <- ExpectId`. -/
def execFldClass (v : U8) (s : State) : Host.Outcome State Fault Refusal :=
  .next (acc v { s with cls := v, st := .expectId })

/-- FLD.ID (R121): `ID <- v; acc(v); STATE <- ExpectLengthLow`. -/
def execFldId (v : U8) (s : State) : Host.Outcome State Fault Refusal :=
  .next (acc v { s with id := v, st := .expectLengthLow })

/-- FLD.LENLO (R122): `LEN[7:0] <- v; acc(v); STATE <- ExpectLengthHigh`. -/
def execFldLenlo (v : U8) (s : State) : Host.Outcome State Fault Refusal :=
  .next (acc v { s with len := setLo s.len v, st := .expectLengthHigh })

/-- FLD.LENHI (R123): `LEN[15:8] <- v; acc(v)`, then the verdict on the new LEN. -/
def execFldLenhi (v : U8) (s : State) : Host.Outcome State Fault Refusal :=
  let t := acc v { s with len := setHi s.len v }
  match verdict t with
  | .tooLarge => execVTooLarge t
  | .poll => execVPoll t
  | .wrongLen e => execVWrongLen e t
  | .accept => execVAccept t

/-- FLD.PAY (R124): the byte goes to PAY[PWP]; the last one leads to the checksum. -/
def execFldPay (v : U8) (s : State) : Host.Outcome State Fault Refusal :=
  .next (acc v { s with
    pay := Memory.store s.pay s.pwp.toNat v
    pwp := s.pwp + 1
    st := if payDone s then .expectChecksumLow else .accumulatingPayload })

/-- FLD.CKLO (R125): `RXCK[7:0] <- v; STATE <- ExpectChecksumHigh`; checksum bytes are not accumulated. -/
def execFldCklo (v : U8) (s : State) : Host.Outcome State Fault Refusal :=
  .next { s with rxck := setLo s.rxck v, st := .expectChecksumHigh }

/-- FLD.CKHI (R126): `RXCK[15:8] <- v`, then the outcome of the comparison with the new RXCK. -/
def execFldCkhi (v : U8) (s : State) : Host.Outcome State Fault Refusal :=
  let t := { s with rxck := setHi s.rxck v }
  match ckOutcome t with
  | .packet => execCkPacket t
  | .poll => execCkPoll t
  | .mismatch => execCkMismatch t

end Sys2Proof.Machine
end

