-- ==== Sys2Proof/Machine/Control.lean ====
section
/-! DEFINITION. The control operations (45_control.md). -/

namespace Sys2Proof.Machine

open Sys2Proof

/-- FLUSH (R180): a partial frame is dropped silently; POS and MAXLEN stay, and REPLAY, which is empty whenever the step takes
`Flush`, is left as it is (assumption 17). -/
def execFlush (s : State) : Host.Outcome State Fault Refusal :=
  .next (endFrame s)

/-- RESET (R181, R182): load MAXLEN, drop the frame and the pending replay, clear POS. -/
def execReset (cfg : U16) (s : State) : Host.Outcome State Fault Refusal :=
  .next { endFrame s with maxlen := cfg, replay := [], pos := 0 }

end Sys2Proof.Machine
end

