-- ==== Sys2Proof/Machine/Scanner.lean ====
section
/-! DEFINITION. The byte-sync scanner (40_scanner.md).  In every byte operation the byte has been taken and counted by the
step (20_memory.md R68) before the meaning runs. -/

namespace Sys2Proof.Machine

open Sys2Proof

/-- SCAN.SYNC1 (R112): the first sync byte; it is stored nowhere. -/
def execScanSync1 (s : State) : Host.Outcome State Fault Refusal :=
  .next { s with st := .expectSyncTrailer }

/-- SCAN.SKIP (R111): the byte is discarded and nothing is emitted (90_conflicts.md C1). -/
def execScanSkip (_v : U8) (s : State) : Host.Outcome State Fault Refusal :=
  .next { s with st := .scanningForSync }

/-- TRL.SYNC2 (R113): the frame starts; no frame register is written. -/
def execTrlSync2 (s : State) : Host.Outcome State Fault Refusal :=
  .next { s with st := .expectClass }

/-- TRL.REPEAT (R114): a repeated sync byte is absorbed. -/
def execTrlRepeat (s : State) : Host.Outcome State Fault Refusal :=
  .next { s with st := .expectSyncTrailer }

/-- TRL.ABORT (R115): the nascent frame is dropped, without an event and without backtracking. -/
def execTrlAbort (_v : U8) (s : State) : Host.Outcome State Fault Refusal :=
  .next (endFrame s)

end Sys2Proof.Machine
end

