-- ==== Sys2Proof/Machine/Dispatch.lean ====
section
/-! DEFINITION. Every operation to its meaning, one arm for each row of spec/opcode_table.json. -/

namespace Sys2Proof.Machine

open Sys2Proof

def exec (i : Instr) (s : State) : Host.Outcome State Fault Refusal :=
  match i with
  | .flush => Sys2Proof.Machine.execFlush s
  | .scanSync1 => Sys2Proof.Machine.execScanSync1 s
  | .scanSkip v => Sys2Proof.Machine.execScanSkip v s
  | .trlSync2 => Sys2Proof.Machine.execTrlSync2 s
  | .trlRepeat => Sys2Proof.Machine.execTrlRepeat s
  | .trlAbort v => Sys2Proof.Machine.execTrlAbort v s
  | .fldClass v => Sys2Proof.Machine.execFldClass v s
  | .fldId v => Sys2Proof.Machine.execFldId v s
  | .fldLenlo v => Sys2Proof.Machine.execFldLenlo v s
  | .fldLenhi v => Sys2Proof.Machine.execFldLenhi v s
  | .fldPay v => Sys2Proof.Machine.execFldPay v s
  | .fldCklo v => Sys2Proof.Machine.execFldCklo v s
  | .fldCkhi v => Sys2Proof.Machine.execFldCkhi v s
  | .vTooLarge => Sys2Proof.Machine.execVTooLarge s
  | .vPoll => Sys2Proof.Machine.execVPoll s
  | .vWrongLen e => Sys2Proof.Machine.execVWrongLen e s
  | .vAccept => Sys2Proof.Machine.execVAccept s
  | .ckPacket => Sys2Proof.Machine.execCkPacket s
  | .ckPoll => Sys2Proof.Machine.execCkPoll s
  | .ckMismatch => Sys2Proof.Machine.execCkMismatch s
  | .reinject => Sys2Proof.Machine.execReinject s
  | .reset cfg => Sys2Proof.Machine.execReset cfg s

end Sys2Proof.Machine
end

