-- ==== Sys2Proof/Machine/Fetch.lean ====
section
/-! DEFINITION. How a step selects its operation: the reset pin, else the symbol taken and the dispatch word it makes with STATE
(30_encoding.md R89; 20_memory.md R68; 60_exceptions.md R200); and how a given dispatch word is made the next one. -/

namespace Sys2Proof.Machine

open Sys2Proof

/-- What a step does. -/
inductive Selection where
  /-- No symbol is available and the pin is released: the block holds its state (60_exceptions.md R212; assumption 8). -/
  | hold
  /-- Run an operation on the state from which the symbol has been taken and counted. -/
  | run (i : Instr) (s : State)
  /-- STATE has a reserved code: the symbol has been taken and counted, and the block recovers (30_encoding.md R92).  No state
  gives one, since STATE has the nine legal codes only (assumption 11). -/
  | upset (s : State)
  deriving DecidableEq, Repr

/-- The operation of the coming step, on the state `s` whose step has begun; `pin` is what the reset pin shows.  Reset wins and
takes no symbol (60_exceptions.md R200). -/
def select (pin : Option U16) (s : State) : Selection :=
  match pin with
  | some cfg => .run (.reset cfg) s
  | none =>
    match takeSymbol s with
    | none => .hold
    | some (x, t) =>
      match decodeWord (dispatchWord x t.st) with
      | .ok i => .run i (countSymbol x t)
      | .error _ => .upset (countSymbol x t)

/-- The pin shows `none` in the coming step. -/
def releasePin : List (Option U16) → List (Option U16)
  | some _ :: rest => none :: rest
  | rest => rest

/-- The symbol the coming step would take is replaced by `x`; `Flush` can stand in IN only, which is read while REPLAY is empty. -/
def placeSymbol (x : Symbol) (s : State) : State :=
  match x, s.replay with
  | .byte v, _ :: rest => { s with replay := v :: rest }
  | .byte v, [] => { s with inputs := .byte v :: s.inputs.tail }
  | .flush, _ => { s with replay := [], inputs := .flush :: s.inputs.tail }

/-- The symbol a dispatch word stands for. -/
def symbolOf (d : DispatchWord) : Symbol := if flushField d then .flush else .byte (vField d)

/-- Makes `d` the dispatch word of the coming step: its symbol is placed where the step takes it, STATE gets its code, the reset pin
is released.  FLUSH's row leaves STATE open: with a reserved code there, STATE stays (assumption 13). -/
def placeWord (d : DispatchWord) (s : State) : State :=
  placeSymbol (symbolOf d)
    { s with st := (DecState.ofCode (stateField d)).getD s.st, resetPin := releasePin s.resetPin }

end Sys2Proof.Machine
end

