-- ==== Sys2Proof/Machine/Step.lean ====
section
/-! DEFINITION. One step of the block (00_scope.md R10): begin the step, select the operation, run it. -/

namespace Sys2Proof.Machine

open Sys2Proof

/-- One step. -/
def step (s : State) : Host.Outcome State Fault Refusal :=
  match select (pinNow s) (beginStep s) with
  | .hold => .next (beginStep s)
  | .run i t => exec i t
  | .upset t => .next (endFrame t)

/-- `s` with the dispatch word `w` made the next one; a number that selects no operation changes nothing, since no state makes
it (assumption 13). -/
def State.withFetchWord (s : State) (_nbits w : Nat) : State :=
  match decode w with
  | .ok _ => placeWord (BitVec.ofNat 13 w) s
  | .error _ => s

end Sys2Proof.Machine
end

