-- ==== Sys2Proof/Safety.lean ====
section
/-! DEFINITION. The terms claims are made in: what a frame in progress has consumed, the invariant of the spec's own reachability
rules, the runs from a reset with any host, the events of a run, and the bound on the steps of a re-scan. -/

namespace Sys2Proof.Machine

open Sys2Proof

/-! ### The frame in progress, read from the registers -/

/-- The states in which the payload is present (10_state.md R35). -/
def DecState.holdsPayload : DecState → Bool
  | .accumulatingPayload | .expectChecksumLow | .expectChecksumHigh => true
  | _ => false

/-- The states that start from cleared registers: the two of 10_state.md R37 and ExpectClass, which TRL.SYNC2 enters without
writing one. -/
def DecState.startsClear : DecState → Bool
  | .scanningForSync | .expectSyncTrailer | .expectClass => true
  | _ => false

/-- The states after the sync trailer: a body byte is next. -/
def DecState.inBody : DecState → Bool
  | .scanningForSync | .expectSyncTrailer => false
  | _ => true

/-- Every register that `frame_reset()` clears is clear (10_state.md R36). -/
abbrev FrameClear (s : State) : Prop :=
  s.cls = 0 ∧ s.id = 0 ∧ s.len = 0 ∧ s.rxck = 0 ∧ s.pwp = 0 ∧ s.payv = false ∧ s.cka = 0 ∧ s.ckb = 0

/-- The bytes of the body that the checksum covers, consumed so far: "body so far" of 43_checksum.md R152, as the registers
hold them. -/
def coveredSoFar (s : State) : List U8 :=
  match s.st with
  | .scanningForSync | .expectSyncTrailer | .expectClass => []
  | .expectId => [s.cls]
  | .expectLengthLow => [s.cls, s.id]
  | .expectLengthHigh => [s.cls, s.id, lo s.len]
  | .accumulatingPayload => headerBytes s ++ Memory.prefixBytes s.pay s.pwp.toNat
  | .expectChecksumLow | .expectChecksumHigh => headerBytes s ++ Memory.prefixBytes s.pay s.len.toNat

/-- All the bytes of the body consumed so far, the first checksum byte included (44_recovery.md R165). -/
def bodySoFar (s : State) : List U8 :=
  match s.st with
  | .expectChecksumHigh => coveredSoFar s ++ [lo s.rxck]
  | _ => coveredSoFar s

/-- What the block has not finished with: the body in progress, then REPLAY, then IN.  After a mismatch it is exactly what is
scanned next. -/
def unfinished (s : State) : List Symbol :=
  (bodySoFar s ++ s.replay).map Symbol.byte ++ s.inputs

/-! ### The invariant -/

/-- What 10_state.md R34, R35, R37, 43_checksum.md R152, 42_validator.md R143 and 44_recovery.md R170 say of every reachable state,
with what they need to be kept by a step. -/
structure Invariant (s : State) : Prop where
  /-- PAY is in canonical form. -/
  payWf : Memory.wf s.pay
  /-- POS is a value of POS_W bits (R31). -/
  posBound : s.pos < posMod s.config
  /-- R37. -/
  frameClear : s.st.startsClear = true → FrameClear s
  /-- A field not yet received holds its reset value (R43). -/
  idNext : s.st = .expectId → s.id = 0 ∧ s.len = 0
  lenNext : s.st = .expectLengthLow → s.len = 0
  lenHighNext : s.st = .expectLengthHigh → hi s.len = 0
  rxckNext : s.st ≠ .expectChecksumHigh → s.rxck = 0
  rxckHighNext : s.st = .expectChecksumHigh → hi s.rxck = 0
  /-- R34. -/
  pwpIdle : s.st.holdsPayload = false → s.pwp = 0
  pwpFilling : s.st = .accumulatingPayload → s.pwp.toNat < s.len.toNat
  pwpDone : s.st = .expectChecksumLow ∨ s.st = .expectChecksumHigh → s.pwp = s.len
  /-- R35. -/
  payvIff : s.payv = s.st.holdsPayload
  /-- R143. -/
  lenBound : s.st.holdsPayload = true → s.len.toNat ≤ lmax s.maxlen
  /-- R152. -/
  sums : (s.cka, s.ckb) = ck (coveredSoFar s)
  /-- R170: what is left of a replay, with what the frame in progress has taken of it, fits REPLAY. -/
  replayFits : s.replay ≠ [] → (bodySoFar s).length + s.replay.length ≤ replayCap s.maxlen

/-! ### Runs -/

/-- The state on release of a reset, for any wiring, configured maximum, left-over payload buffer and host (10_state.md R38;
70_reset_and_hazards.md R230). -/
def State.started (c : Config) (maxlen : U16) (pay : Memory) (inputs : List Symbol) (pin : List (Option U16)) : State :=
  { State.reset with config := c, maxlen := maxlen, pay := pay, inputs := inputs, resetPin := pin }

/-- A state some run from a reset comes to. -/
def Reachable (s : State) : Prop :=
  ∃ c maxlen pay inputs pin k, Memory.wf pay ∧
    Host.Core.run core k (State.started c maxlen pay inputs pin) = .next s

/-- `k` steps and the events they emit, in step order (20_memory.md R63); `none` if a step stops. -/
def runEvents : Nat → State → Option (State × List Event)
  | 0, s => some (s, [])
  | k + 1, s =>
    match step s with
    | .next t => (runEvents k t).map fun r => (r.1, t.event.toList ++ r.2)
    | .fault _ => none
    | .refused _ => none

/-- Nothing is left to consume. -/
def quiet (s : State) : Bool := s.replay.isEmpty && s.inputs.isEmpty

/-- Ready for a new frame: idle, registers clear, no replay (95_test_vectors.md `idle0`). -/
abbrev Idle (s : State) : Prop :=
  s.st = .scanningForSync ∧ FrameClear s ∧ s.replay = []

/-- The reset pin stays released. -/
abbrev PinReleased (s : State) : Prop := ∀ p ∈ s.resetPin, p = none

/-! ### Frames on the wire (30_encoding.md R80, R97) -/

/-- The body bytes the checksum covers (30_encoding.md R86). -/
def coveredBytes (cls id : U8) (n : U16) (p : List U8) : List U8 := [cls, id, lo n, hi n] ++ p

/-- A frame with the given checksum bytes. -/
def wireFrame (cls id : U8) (n : U16) (p : List U8) (ckA ckB : U8) : List U8 :=
  [0xB5, 0x62] ++ coveredBytes cls id n p ++ [ckA, ckB]

/-- `FRAME(c, i, p)` of 30_encoding.md R97. -/
def goodFrame (cls id : U8) (p : List U8) : List U8 :=
  let n := BitVec.ofNat 16 p.length
  let s := ck (coveredBytes cls id n p)
  wireFrame cls id n p s.1 s.2

/-- A body the validator lets through: its length is the payload's, at most LMAX, and the table's where it has one and the length
is not 0 (42_validator.md R136). -/
abbrev Acceptable (s : State) (cls id : U8) (n : U16) (p : List U8) : Prop :=
  p.length = n.toNat ∧ n.toNat ≤ lmax s.maxlen ∧ (n ≠ 0 → ∀ e, lookup s.config cls id = some e → e = n)

/-- The events of a mismatch. -/
def Event.isFailedChecksum : Event → Bool
  | .failedChecksum _ _ => true
  | _ => false

/-! ### Recovery as the source words it: bytes put back into the input (44_recovery.md R166, R176) -/

/-- The same state with the pending replay standing in the input itself. -/
def rewound (s : State) : State :=
  { s with replay := [], inputs := s.replay.map Symbol.byte ++ s.inputs }

/-! ### The cost of a re-scan (44_recovery.md R169, R172) -/

/-- A bound on the steps until REPLAY and IN are empty: every symbol costs one step and at most one re-scan of a body. -/
def drainBound (s : State) : Nat :=
  (unfinished s).length * (replayCap s.maxlen + 1) +
    (if s.st.inBody then replayCap s.maxlen - (bodySoFar s).length else 0)

end Sys2Proof.Machine
end

