-- ==== Sys2Proof/Certificates/Slice0/Obligations.lean ====
section
/-! DEFINITION. The statements for the provers.  Each docstring names the rule it formalises; what a statement takes from the model's
own choices it says, with the assumption's number. -/

open Sys2Proof Sys2Proof.Machine

/-! ### Encoding and dispatch -/

/-- 95_test_vectors.md 2.1, E1 to E16: the words, written out from 30_encoding.md R88 to R90, decode to their operations. -/
def Obligations.SpelledWordsDecode : Prop :=
  decode 0x00B5 = .ok .scanSync1 ∧ decode 0x00B4 = .ok (.scanSkip 0xB4) ∧ decode 0x0062 = .ok (.scanSkip 0x62) ∧
  decode 0x0162 = .ok .trlSync2 ∧ decode 0x01B5 = .ok .trlRepeat ∧ decode 0x0100 = .ok (.trlAbort 0x00) ∧
  decode 0x0163 = .ok (.trlAbort 0x63) ∧ decode 0x02B5 = .ok (.fldClass 0xB5) ∧ decode 0x0362 = .ok (.fldId 0x62) ∧
  decode 0x04FF = .ok (.fldLenlo 0xFF) ∧ decode 0x0500 = .ok (.fldLenhi 0x00) ∧ decode 0x06B5 = .ok (.fldPay 0xB5) ∧
  decode 0x0762 = .ok (.fldCklo 0x62) ∧ decode 0x0800 = .ok (.fldCkhi 0x00) ∧ decode 0x1600 = .ok .flush ∧
  decode 0x1000 = .ok .flush

/-- 30_encoding.md section 3: the word of every well-formed operation that has one decodes to that operation, whatever its byte. -/
def Obligations.DecodeOfEncodeIsTheInstruction : Prop :=
  ∀ (i : Instr) (d : DispatchWord), i.wf = true → encode i = some d → decode d.toNat = .ok i

/-- 30_encoding.md section 3: what a word decodes to is well-formed; with F = 0 the word is that operation's own, with F = 1 it is
FLUSH. -/
def Obligations.DecodedInstructionHasTheWord : Prop :=
  ∀ (w : Nat) (i : Instr), decode w = .ok i →
    i.wf = true ∧ w < 2 ^ 13 ∧
    (flushField (BitVec.ofNat 13 w) = false → encode i = some (BitVec.ofNat 13 w)) ∧
    (flushField (BitVec.ofNat 13 w) = true → i = .flush)

/-- 30_encoding.md R91: for every STATE and byte exactly one of rows 2 to 13 is the first to match, and it is the one decoded; `Flush`
selects row 1 in every STATE; from ExpectClass on, the byte's value does not matter to the row. -/
def Obligations.EverySymbolSelectsExactlyOneRow : Prop :=
  (∀ (st : DecState) (v : U8), ∃! k : Nat, 1 ≤ k ∧
    (∃ r, opRows[k]? = some r ∧ dispatchWord (.byte v) st &&& r.mask = r.pat ∧
      decodeWord (dispatchWord (.byte v) st) = .ok (r.build v)) ∧
    ∀ j < k, ∀ r, opRows[j]? = some r → dispatchWord (.byte v) st &&& r.mask ≠ r.pat) ∧
  (∀ st : DecState, decodeWord (dispatchWord .flush st) = .ok .flush) ∧
  (∀ (st : DecState) (v w : U8) (i j : Instr), 2 ≤ st.code.toNat →
    decodeWord (dispatchWord (.byte v) st) = .ok i → decodeWord (dispatchWord (.byte w) st) = .ok j →
    i.mnemonic = j.mnemonic)

/-- 93_implementation_defined.md U2, assumption 11: STATE codes 9 to 15 select nothing, and no STATE value has one. -/
def Obligations.ReservedStateCodesSelectNothing : Prop :=
  (∀ (c : BitVec 4) (v : U8), 9 ≤ c.toNat → decodeWord (dispatch 0 c v) = .error (.reservedState c)) ∧
  (∀ st : DecState, st.code.toNat ≤ 8 ∧ DecState.ofCode st.code = some st)

/-! ### The step -/

/-- 20_memory.md section 7 and 30_encoding.md section 3: while the reset pin is released, a step runs the decoded operation on the state
from which the symbol has been taken (REPLAY first) and counted.  That the event port is cleared and the pin's schedule moves on are
the model's (assumptions 2, 9). -/
def Obligations.StepRunsTheDecodedInstruction : Prop :=
  ∀ (s : State) (i : Instr), pinNow s = none →
    (∀ v rest, s.replay = v :: rest → decodeWord (dispatchWord (.byte v) s.st) = .ok i →
      step s = exec i { s with replay := rest, pos := (s.pos + 1) % 2 ^ s.config.posW, event := none,
                               resetPin := s.resetPin.tail }) ∧
    (∀ v rest, s.replay = [] → s.inputs = .byte v :: rest → decodeWord (dispatchWord (.byte v) s.st) = .ok i →
      step s = exec i { s with inputs := rest, pos := (s.pos + 1) % 2 ^ s.config.posW, event := none,
                               resetPin := s.resetPin.tail }) ∧
    (∀ rest, s.replay = [] → s.inputs = .flush :: rest → decodeWord (dispatchWord .flush s.st) = .ok i →
      step s = exec i { s with inputs := rest, event := none, resetPin := s.resetPin.tail })

/-- 60_exceptions.md section 7 (R212): with nothing to take, the block holds its state (assumption 8). -/
def Obligations.StepHoldsTheStateWithoutSymbol : Prop :=
  ∀ s : State, pinNow s = none → s.replay = [] → s.inputs = [] →
    step s = .next { s with event := none, resetPin := s.resetPin.tail }

/-- 60_exceptions.md section 3 and 45_control.md: with the reset pin asserted, a step is RESET, whatever symbol or replay is pending, and
takes none (the pin's schedule is the model's, assumption 9). -/
def Obligations.ResetPinWinsOverEverySymbol : Prop :=
  ∀ (s : State) (cfg : U16), pinNow s = some cfg →
    step s = .next { s with
      st := .scanningForSync, cls := 0, id := 0, len := 0, rxck := 0, pwp := 0, payv := false, cka := 0, ckb := 0
      replay := [], pos := 0, maxlen := cfg, event := none, resetPin := s.resetPin.tail }

/-- 44_recovery.md R175: while REPLAY holds a byte, nothing is taken from IN. -/
def Obligations.ReplayStallsTheInput : Prop :=
  ∀ s t : State, s.replay ≠ [] → step s = .next t → t.inputs = s.inputs

/-- Assumption 13: a dispatch word placed by `withFetchWord` is run by the very next step, on a state whose frame registers, buffer,
MAXLEN and wiring are those it was placed in. -/
def Obligations.PlacedWordRunsNext : Prop :=
  ∀ (s : State) (nbits w : Nat) (i : Instr), decode w = .ok i →
    ∃ u, step (s.withFetchWord nbits w) = exec i u ∧
      { u with st := s.st, replay := s.replay, pos := s.pos, event := s.event, inputs := s.inputs,
               resetPin := s.resetPin } = s

/-! ### What each operation does: the next state whole, so that what is not named is unchanged -/

/-- 40_scanner.md R112 to R114: the sync bytes select these operations in these STATEs, and each only moves STATE. -/
def Obligations.SyncBytesMoveTheScanner : Prop :=
  decodeWord (dispatchWord (.byte 0xB5) .scanningForSync) = .ok .scanSync1 ∧
  (∀ s : State, exec .scanSync1 s = .next { s with st := .expectSyncTrailer }) ∧
  decodeWord (dispatchWord (.byte 0x62) .expectSyncTrailer) = .ok .trlSync2 ∧
  (∀ s : State, exec .trlSync2 s = .next { s with st := .expectClass }) ∧
  decodeWord (dispatchWord (.byte 0xB5) .expectSyncTrailer) = .ok .trlRepeat ∧
  (∀ s : State, exec .trlRepeat s = .next { s with st := .expectSyncTrailer })

/-- 40_scanner.md, the pseudocode of R111 and R115: every other byte is discarded while idle, or aborts the nascent frame, and nothing is
emitted (the spec's own decision D14). -/
def Obligations.OtherBytesAreDiscarded : Prop :=
  (∀ v : U8, v ≠ 0xB5 → decodeWord (dispatchWord (.byte v) .scanningForSync) = .ok (.scanSkip v)) ∧
  (∀ (v : U8) (s : State), exec (.scanSkip v) s = .next { s with st := .scanningForSync }) ∧
  (∀ v : U8, v ≠ 0x62 → v ≠ 0xB5 → decodeWord (dispatchWord (.byte v) .expectSyncTrailer) = .ok (.trlAbort v)) ∧
  (∀ (v : U8) (s : State), exec (.trlAbort v) s = .next { s with
    st := .scanningForSync, cls := 0, id := 0, len := 0, rxck := 0, pwp := 0, payv := false, cka := 0, ckb := 0 })

/-- 41_field_assembler.md R120, R121, R122, R125: the single-byte fields; CLS, ID and LEN[7:0] are accumulated, RXCK[7:0] is not. -/
def Obligations.SingleByteFields : Prop :=
  (∀ v : U8, decodeWord (dispatchWord (.byte v) .expectClass) = .ok (.fldClass v)) ∧
  (∀ (v : U8) (s : State), exec (.fldClass v) s = .next { s with
    cls := v, cka := s.cka + v, ckb := s.ckb + (s.cka + v), st := .expectId }) ∧
  (∀ v : U8, decodeWord (dispatchWord (.byte v) .expectId) = .ok (.fldId v)) ∧
  (∀ (v : U8) (s : State), exec (.fldId v) s = .next { s with
    id := v, cka := s.cka + v, ckb := s.ckb + (s.cka + v), st := .expectLengthLow }) ∧
  (∀ v : U8, decodeWord (dispatchWord (.byte v) .expectLengthLow) = .ok (.fldLenlo v)) ∧
  (∀ (v : U8) (s : State), exec (.fldLenlo v) s = .next { s with
    len := s.len.extractLsb' 8 8 ++ v, cka := s.cka + v, ckb := s.ckb + (s.cka + v), st := .expectLengthHigh }) ∧
  (∀ v : U8, decodeWord (dispatchWord (.byte v) .expectChecksumLow) = .ok (.fldCklo v)) ∧
  (∀ (v : U8) (s : State), exec (.fldCklo v) s = .next { s with
    rxck := s.rxck.extractLsb' 8 8 ++ v, st := .expectChecksumHigh })

/-- 41_field_assembler.md R123 with 42_validator.md R136: FLD.LENHI completes LEN, accumulates the byte and runs the first verdict whose
condition holds on the new LEN. -/
def Obligations.LengthHighRunsTheFirstVerdict : Prop :=
  ∀ (v : U8) (s w : State),
    w = { s with len := v ++ s.len.extractLsb' 0 8, cka := s.cka + v, ckb := s.ckb + (s.cka + v) } →
    (w.maxlen ≠ 0 ∧ w.maxlen.toNat < w.len.toNat →
      exec (.fldLenhi v) s = .next { w with
        event := some (.payloadTooLarge (snap w) w.maxlen)
        st := .scanningForSync, cls := 0, id := 0, len := 0, rxck := 0, pwp := 0, payv := false, cka := 0, ckb := 0 }) ∧
    (¬(w.maxlen ≠ 0 ∧ w.maxlen.toNat < w.len.toNat) → w.len = 0 →
      exec (.fldLenhi v) s = .next { w with payv := true, pwp := 0, st := .expectChecksumLow }) ∧
    (¬(w.maxlen ≠ 0 ∧ w.maxlen.toNat < w.len.toNat) → w.len ≠ 0 →
      ∀ e, lookup w.config w.cls w.id = some e → w.len ≠ e →
      exec (.fldLenhi v) s = .next { w with
        event := some (.wrongPayloadLength (snap w) e)
        st := .scanningForSync, cls := 0, id := 0, len := 0, rxck := 0, pwp := 0, payv := false, cka := 0, ckb := 0 }) ∧
    (¬(w.maxlen ≠ 0 ∧ w.maxlen.toNat < w.len.toNat) → w.len ≠ 0 →
      (lookup w.config w.cls w.id = none ∨ lookup w.config w.cls w.id = some w.len) →
      exec (.fldLenhi v) s = .next { w with payv := true, pwp := 0, st := .accumulatingPayload })

/-- 42_validator.md, the pseudocode of R137 to R140: the effect of each verdict as an operation of its own. -/
def Obligations.VerdictEffects : Prop :=
  ∀ s : State,
    exec .vTooLarge s = .next { s with
      event := some (.payloadTooLarge (snap s) s.maxlen)
      st := .scanningForSync, cls := 0, id := 0, len := 0, rxck := 0, pwp := 0, payv := false, cka := 0, ckb := 0 } ∧
    exec .vPoll s = .next { s with payv := true, pwp := 0, st := .expectChecksumLow } ∧
    (∀ e, exec (.vWrongLen e) s = .next { s with
      event := some (.wrongPayloadLength (snap s) e)
      st := .scanningForSync, cls := 0, id := 0, len := 0, rxck := 0, pwp := 0, payv := false, cka := 0, ckb := 0 }) ∧
    exec .vAccept s = .next { s with payv := true, pwp := 0, st := .accumulatingPayload }

/-- 41_field_assembler.md R124: under the rule's precondition FLD.PAY stores the byte at PAY[PWP] and at no other index, moves PWP on
without wrapping, accumulates the byte, and goes to the checksum exactly on the last byte. -/
def Obligations.PayloadByteIsStoredAtWritePosition : Prop :=
  ∀ (v : U8) (s : State), Memory.wf s.pay → s.pwp.toNat < s.len.toNat →
    ∃ t, exec (.fldPay v) s = .next t ∧ Memory.wf t.pay ∧
      (∀ a, Memory.read t.pay a = if a = s.pwp.toNat then v else Memory.read s.pay a) ∧
      t.pwp.toNat = s.pwp.toNat + 1 ∧
      { t with pay := s.pay, pwp := s.pwp } = { s with
        cka := s.cka + v, ckb := s.ckb + (s.cka + v)
        st := if s.pwp.toNat + 1 = s.len.toNat then .expectChecksumLow else .accumulatingPayload }

/-- 41_field_assembler.md section on FLD.PAY (R124), 20_memory.md section 1 (R52): FLD.PAY completes from every state, also outside its
precondition, with the effect of its pseudocode.  At PWP = 65535, an index PAY does not have and no run reaches, nothing is stored and PWP
wraps to 0: the model's choice (assumption 7). -/
def Obligations.PayloadByteCompletesAtEveryWritePosition : Prop :=
  ∀ (v : U8) (s : State), ∃ t, exec (.fldPay v) s = .next t ∧
    { t with pay := s.pay } = { s with
      pwp := s.pwp + 1, cka := s.cka + v, ckb := s.ckb + (s.cka + v)
      st := if s.pwp.toNat + 1 = s.len.toNat then .expectChecksumLow else .accumulatingPayload } ∧
    (Memory.wf s.pay → Memory.wf t.pay ∧
      ∀ a, Memory.read t.pay a = if a = s.pwp.toNat ∧ a < 65535 then v else Memory.read s.pay a)

/-- 41_field_assembler.md R126 with 43_checksum.md R154: FLD.CKHI completes RXCK and runs the outcome of comparing it with `CKB ++ CKA`. -/
def Obligations.ChecksumHighRunsTheOutcome : Prop :=
  ∀ (v : U8) (s w : State), w = { s with rxck := v ++ s.rxck.extractLsb' 0 8 } →
    (w.ckb ++ w.cka = w.rxck → w.len ≠ 0 →
      exec (.fldCkhi v) s = .next { w with
        event := some (.packet w.cls w.id ((List.range w.len.toNat).map (Memory.read w.pay)))
        st := .scanningForSync, cls := 0, id := 0, len := 0, rxck := 0, pwp := 0, payv := false, cka := 0, ckb := 0 }) ∧
    (w.ckb ++ w.cka = w.rxck → w.len = 0 →
      exec (.fldCkhi v) s = .next { w with
        event := some (.pollingMessage (snap w))
        st := .scanningForSync, cls := 0, id := 0, len := 0, rxck := 0, pwp := 0, payv := false, cka := 0, ckb := 0 }) ∧
    (w.ckb ++ w.cka ≠ w.rxck → ∃ t, exec (.fldCkhi v) s = .next t ∧ exec .ckMismatch w = .next t ∧
      t.st = .scanningForSync ∧ ∃ f c, t.event = some (.failedChecksum f c))

/-- 43_checksum.md, the pseudocode of R155 and R156: deliver the packet or report the polling frame, and end the frame. -/
def Obligations.MatchingChecksumEffects : Prop :=
  ∀ s : State,
    exec .ckPacket s = .next { s with
      event := some (.packet s.cls s.id ((List.range s.len.toNat).map (Memory.read s.pay)))
      st := .scanningForSync, cls := 0, id := 0, len := 0, rxck := 0, pwp := 0, payv := false, cka := 0, ckb := 0 } ∧
    exec .ckPoll s = .next { s with
      event := some (.pollingMessage (snap s))
      st := .scanningForSync, cls := 0, id := 0, len := 0, rxck := 0, pwp := 0, payv := false, cka := 0, ckb := 0 }

/-- 43_checksum.md R157 with 44_recovery.md R165 to R167: the report carries the snapshot and the computed checksum, the body goes in front
of REPLAY in the order received, POS goes back by LEN + 6 modulo 2^POS_W, and the frame ends.  With the payload complete, as it is in
every run, the snapshot holds the payload whole. -/
def Obligations.MismatchReportsAndReinjects : Prop :=
  ∀ s : State,
    (∃ t, exec .ckMismatch s = .next t ∧
      (t.pos : Int) = ((s.pos : Int) - (s.len.toNat + 6 : Nat)) % (2 ^ s.config.posW : Nat) ∧
      { t with pos := s.pos } = { s with
        event := some (.failedChecksum (snap s) (s.ckb ++ s.cka))
        replay := [s.cls, s.id, s.len.extractLsb' 0 8, s.len.extractLsb' 8 8] ++
          (List.range s.len.toNat).map (Memory.read s.pay) ++ [s.rxck.extractLsb' 0 8, s.rxck.extractLsb' 8 8] ++ s.replay
        st := .scanningForSync, cls := 0, id := 0, len := 0, rxck := 0, pwp := 0, payv := false, cka := 0, ckb := 0 }) ∧
    (s.payv = true → s.pwp = s.len →
      snap s = { cls := s.cls, id := s.id, length := s.len,
                 payload := some ((List.range s.len.toNat).map (Memory.read s.pay)), receivedChecksum := s.rxck })

/-- 44_recovery.md R166, R167: REINJECT alone puts the body in front of REPLAY and rewinds POS by its length; nothing else changes. -/
def Obligations.ReinjectPutsTheBodyInFront : Prop :=
  ∀ s : State, ∃ t, exec .reinject s = .next t ∧
    t.replay = [s.cls, s.id, s.len.extractLsb' 0 8, s.len.extractLsb' 8 8] ++
      (List.range s.len.toNat).map (Memory.read s.pay) ++ [s.rxck.extractLsb' 0 8, s.rxck.extractLsb' 8 8] ++ s.replay ∧
    (t.pos : Int) = ((s.pos : Int) - (s.len.toNat + 6 : Nat)) % (2 ^ s.config.posW : Nat) ∧
    { t with replay := s.replay, pos := s.pos } = s

/-- 45_control.md R180: FLUSH drops the frame in every STATE, emits nothing, and leaves POS, MAXLEN and REPLAY. -/
def Obligations.FlushDropsTheFrame : Prop :=
  (∀ st : DecState, decodeWord (dispatchWord .flush st) = .ok .flush) ∧
  (∀ s : State, exec .flush s = .next { s with
    st := .scanningForSync, cls := 0, id := 0, len := 0, rxck := 0, pwp := 0, payv := false, cka := 0, ckb := 0 })

/-- 45_control.md R181, R182: RESET loads MAXLEN, drops the frame, empties REPLAY, clears POS and emits nothing. -/
def Obligations.ResetConstructsTheDecoder : Prop :=
  ∀ (cfg : U16) (s : State), exec (.reset cfg) s = .next { s with
    st := .scanningForSync, cls := 0, id := 0, len := 0, rxck := 0, pwp := 0, payv := false, cka := 0, ckb := 0
    replay := [], pos := 0, maxlen := cfg }

/-! ### Rules of the whole machine -/

/-- 60_exceptions.md R199: outside FLD.LENHI and FLD.CKHI no step emits; the validator's events are FLD.LENHI's, the checksum's are
FLD.CKHI's, and FLD.CKHI always emits one. -/
def Obligations.OnlyLengthHighAndChecksumHighEmit : Prop :=
  (∀ (s t : State) (e : Event), step s = .next t → t.event = some e →
    match e with
    | .payloadTooLarge _ _ | .wrongPayloadLength _ _ => s.st = .expectLengthHigh
    | .packet _ _ _ | .pollingMessage _ | .failedChecksum _ _ => s.st = .expectChecksumHigh) ∧
  (∀ (s t : State) (v : U8), pinNow s = none → s.st = .expectChecksumHigh →
    (s.replay.head? = some v ∨ s.replay = [] ∧ s.inputs.head? = some (.byte v)) →
    step s = .next t → t.event ≠ none)

/-- 60_exceptions.md section 4 and 10_state.md section 8: a step that emits, and any step that comes back to ScanningForSync, leaves
every frame register clear. -/
def Obligations.EveryReturnToScanningClearsTheFrame : Prop :=
  ∀ s t : State, step s = .next t →
    (t.event ≠ none → t.st = .scanningForSync ∧ FrameClear t) ∧
    (s.st ≠ .scanningForSync → t.st = .scanningForSync → FrameClear t)

/-- 44_recovery.md R173: the operations that end a frame without recovery leave REPLAY and POS, and over a whole step REPLAY gains
bytes only where FailedChecksum is emitted. -/
def Obligations.OnlyMismatchRewinds : Prop :=
  (∀ (s t : State) (i : Instr),
    ((∃ v, i = .trlAbort v) ∨ i = .vTooLarge ∨ (∃ e, i = .vWrongLen e) ∨ i = .flush ∨ i = .ckPacket ∨ i = .ckPoll) →
    exec i s = .next t → t.replay = s.replay ∧ t.pos = s.pos) ∧
  (∀ s t : State, step s = .next t →
    t.replay <:+ s.replay ∨ ∃ f c, t.event = some (.failedChecksum f c))

/-- 70_reset_and_hazards.md R237: MAXLEN changes only by a reset, and a reset discards the frame and the pending replay. -/
def Obligations.MaxlenChangesOnlyByReset : Prop :=
  ∀ s t : State, step s = .next t →
    (pinNow s = none → t.maxlen = s.maxlen) ∧
    (pinNow s ≠ none → FrameClear t ∧ t.st = .scanningForSync ∧ t.replay = [])

/-- 20_memory.md section 1 (R54), 70_reset_and_hazards.md section 3 (R236): no operation writes the wiring, POS_W and the length table,
which the model carries in the state (assumption 1); and the lookup is the same function of CLS and ID ever after. -/
def Obligations.WiringNeverChanges : Prop :=
  (∀ (s t : State) (i : Instr), exec i s = .next t → t.config = s.config) ∧
  (∀ (k : Nat) (s t : State), Host.Core.run core k s = .next t →
    ∀ c i, lookup t.config c i = lookup s.config c i)

/-- 10_state.md section 3 (R28) and 20_memory.md section 1 (R52): a step changes no byte of PAY but PAY[PWP], and that only in
AccumulatingPayload. -/
def Obligations.PayloadBufferWrittenOnlyAtWritePosition : Prop :=
  ∀ (s t : State) (a : Nat), step s = .next t → Memory.read t.pay a ≠ Memory.read s.pay a →
    s.st = .accumulatingPayload ∧ a = s.pwp.toNat

/-- 10_state.md section 5 (R31) and 44_recovery.md R167: POS with what is left in REPLAY counts, modulo 2^POS_W, the bytes taken from IN:
a replayed byte keeps its index, and a rewind changes nothing of the sum. -/
def Obligations.PositionWithReplayCountsTheInput : Prop :=
  ∀ s t : State, pinNow s = none → step s = .next t →
    (t.pos + t.replay.length) % 2 ^ s.config.posW =
      (s.pos + s.replay.length +
        (if s.replay = [] ∧ (∃ v, s.inputs.head? = some (.byte v)) then 1 else 0)) % 2 ^ s.config.posW

/-- 60_exceptions.md R191 to R195: what each event records, from every state that meets the invariant. -/
def Obligations.EventsRecordTheFrame : Prop :=
  ∀ (s t : State) (e : Event), Invariant s → step s = .next t → t.event = some e →
    match e with
    | .packet c i p =>
        c = s.cls ∧ i = s.id ∧ s.len ≠ 0 ∧ p = (List.range s.len.toNat).map (Memory.read s.pay)
    | .pollingMessage f =>
        ∃ ck, f = { cls := s.cls, id := s.id, length := 0, payload := some [], receivedChecksum := ck } ∧
          ck = s.ckb ++ s.cka ∧ s.len = 0
    | .payloadTooLarge f m =>
        ∃ n : U16, f = { cls := s.cls, id := s.id, length := n, payload := none, receivedChecksum := 0 } ∧
          lo n = lo s.len ∧ m = s.maxlen ∧ m ≠ 0 ∧ m.toNat < n.toNat
    | .wrongPayloadLength f e' =>
        ∃ n : U16, f = { cls := s.cls, id := s.id, length := n, payload := none, receivedChecksum := 0 } ∧
          lo n = lo s.len ∧ n ≠ 0 ∧ lookup s.config s.cls s.id = some e' ∧ n ≠ e' ∧ n.toNat ≤ lmax s.maxlen
    | .failedChecksum f c =>
        ∃ r : U16, f = { cls := s.cls, id := s.id, length := s.len,
                         payload := some ((List.range s.len.toNat).map (Memory.read s.pay)), receivedChecksum := r } ∧
          lo r = lo s.rxck ∧ c = s.ckb ++ s.cka ∧ c ≠ r ∧ t.replay.length = s.replay.length - 1 + s.len.toNat + 6

/-! ### The checksum and the two-byte quantities -/

/-- 43_checksum.md R150: the two sums byte by byte, their combination, and their closed form.  That both start at 0 is PRESUMED
(assumption 14). -/
def Obligations.ChecksumRecurrenceAndClosedForm : Prop :=
  ck [] = (0, 0) ∧
  (∀ (l : List U8) (v : U8), ck (l ++ [v]) = ((ck l).1 + v, (ck l).2 + ((ck l).1 + v))) ∧
  ∀ l : List U8,
    fletcher16 l = ((ck l).2.setWidth 16 <<< 8) ||| (ck l).1.setWidth 16 ∧
    (ck l).1.toNat = (∑ k : Fin l.length, (l[k]).toNat) % 256 ∧
    (ck l).2.toNat = (∑ k : Fin l.length, (l.length - k.val) * (l[k]).toNat) % 256

/-- 30_encoding.md R83, R84: the byte received first is the less significant: what FLD.LENLO then FLD.LENHI, and FLD.CKLO then FLD.CKHI,
put together from their two bytes. -/
def Obligations.TwoByteFieldsAreLittleEndian : Prop :=
  ∀ a b : U8,
    combine a b = a.setWidth 16 ||| (b.setWidth 16 <<< 8) ∧ (combine a b).toNat = a.toNat + 256 * b.toNat ∧
    (∀ s t : State, exec (.fldLenlo a) s = .next t → setHi t.len b = combine a b) ∧
    (∀ s t : State, exec (.fldCklo a) s = .next t → setHi t.rxck b = combine a b)

/-! ### Invariants and runs -/

/-- 10_state.md R38, 70_reset_and_hazards.md R230: the invariant holds on release of every reset, whatever the wiring, the configured
maximum, the left-over payload buffer and the host, and at `State.reset`.  The sums of no byte being 0 is PRESUMED (assumption 14). -/
def Obligations.ReleaseMeetsTheInvariant : Prop :=
  Invariant State.reset ∧
  ∀ c maxlen pay inputs pin, Memory.wf pay → Invariant (State.started c maxlen pay inputs pin)

/-- 10_state.md section 8, 43_checksum.md section 1, 44_recovery.md: every step keeps the invariant, whose sums start at 0, PRESUMED
(assumption 14). -/
def Obligations.StepKeepsTheInvariant : Prop :=
  ∀ s t : State, Invariant s → step s = .next t → Invariant t

/-- 10_state.md R34, R35, R37, in every reachable state. -/
def Obligations.ReachableFrameRegisters : Prop :=
  ∀ s : State, Reachable s →
    ((s.st = .accumulatingPayload → s.pwp.toNat < s.len.toNat ∧ s.len ≠ 0) ∧
      (s.st = .expectChecksumLow ∨ s.st = .expectChecksumHigh → s.pwp = s.len) ∧
      (s.st ≠ .accumulatingPayload → s.st ≠ .expectChecksumLow → s.st ≠ .expectChecksumHigh → s.pwp = 0)) ∧
    (s.payv = true ↔ s.st = .accumulatingPayload ∨ s.st = .expectChecksumLow ∨ s.st = .expectChecksumHigh) ∧
    (s.st = .scanningForSync ∨ s.st = .expectSyncTrailer →
      s.cls = 0 ∧ s.id = 0 ∧ s.len = 0 ∧ s.rxck = 0 ∧ s.pwp = 0 ∧ s.payv = false ∧ s.cka = 0 ∧ s.ckb = 0)

/-- 43_checksum.md section 1 (R152): in every reachable state the accumulators are the pure checksum of the fields received so far, and
with the payload complete, of the whole covered body.  That the sums start at 0 is PRESUMED (assumption 14). -/
def Obligations.ReachableSumsArePureChecksum : Prop :=
  ∀ s : State, Reachable s →
    (s.cka, s.ckb) = ck (coveredSoFar s) ∧
    (s.st = .expectChecksumLow ∨ s.st = .expectChecksumHigh →
      (s.cka, s.ckb) = ck ([s.cls, s.id, s.len.extractLsb' 0 8, s.len.extractLsb' 8 8] ++
        (List.range s.len.toNat).map (Memory.read s.pay)))

/-- 44_recovery.md R170: in every reachable state REPLAY holds at most LMAX + 6 bytes. -/
def Obligations.ReachableReplayFitsItsCapacity : Prop :=
  ∀ s : State, Reachable s → s.replay.length ≤ (if s.maxlen = 0 then 65535 else s.maxlen.toNat) + 6

/-- 60_exceptions.md R204, 00_scope.md section 4 (R10): every meaning and every step answers a next state, from every state there is; and
from every state that meets the invariant, every packet has the payload length its frame declares, from 1 to LMAX. -/
def Obligations.StepIsTotalAndPacketsHaveDeclaredLength : Prop :=
  (∀ (i : Instr) (s : State), ∃ t, exec i s = .next t) ∧
  (∀ s : State, ∃ t, step s = .next t) ∧
  ∀ (s t : State) (c i : U8) (p : List U8), Invariant s → step s = .next t → t.event = some (.packet c i p) →
    p.length = s.len.toNat ∧ 1 ≤ p.length ∧ p.length ≤ (if s.maxlen = 0 then 65535 else s.maxlen.toNat)

/-- 60_exceptions.md R204: no reachable state stops, and the payload of every packet has the declared length, from 1 to LMAX. -/
def Obligations.ReachableStepsNeverStop : Prop :=
  ∀ s : State, Reachable s → ∃ t, step s = .next t ∧ Reachable t ∧
    ∀ c i p, t.event = some (.packet c i p) →
      p.length = s.len.toNat ∧ 1 ≤ p.length ∧ p.length ≤ (if s.maxlen = 0 then 65535 else s.maxlen.toNat)

/-- 44_recovery.md R165 to R167: from the step after a sync trailer, if the frame stays in progress until it fails its checksum, the bytes
then in front of the scanner, and POS, are exactly those of that moment: no byte is lost, doubled or moved. -/
def Obligations.RecoveryRestoresTheStream : Prop :=
  ∀ (s t : State) (k : Nat), Invariant s → PinReleased s → s.st = .expectClass →
    (∀ j u, 0 < j → j < k → Host.Core.run core j s = .next u → u.st.inBody = true) →
    Host.Core.run core k s = .next t → (∃ f c, t.event = some (.failedChecksum f c)) → s.event = none →
    t.replay.map Symbol.byte ++ t.inputs = s.replay.map Symbol.byte ++ s.inputs ∧ t.pos = s.pos ∧ t.st = .scanningForSync

/-- 44_recovery.md R172: for an input of n symbols the block comes to rest within n + n * (LMAX + 6) steps, and emits fewer than n
FailedChecksum events on the way. -/
def Obligations.RescanningComesToRest : Prop :=
  ∀ s : State, Invariant s → PinReleased s → s.st = .scanningForSync → s.replay = [] →
    (∃ k t, k ≤ s.inputs.length + s.inputs.length * (lmax s.maxlen + 6) ∧
      Host.Core.run core k s = .next t ∧ t.replay = [] ∧ t.inputs = []) ∧
    (∀ k t es, runEvents k s = some (t, es) → es.countP Event.isFailedChecksum ≤ s.inputs.length - 1)

/-- 20_memory.md R64: feeding two chunks one after the other gives the state and the events of feeding them at once. -/
def Obligations.ChunkingDoesNotMatter : Prop :=
  ∀ (s t u : State) (xs ys : List Symbol) (k m : Nat) (es fs : List Event),
    runEvents k { s with inputs := xs } = some (t, es) →
    (∀ j r ds, j < k → runEvents j { s with inputs := xs } = some (r, ds) → quiet r = false) →
    quiet t = true →
    runEvents m { t with inputs := ys } = some (u, fs) →
    runEvents (k + m) { s with inputs := xs ++ ys } = some (u, es ++ fs)

/-- 93_implementation_defined.md U1, 10_state.md section 3 (R28): what PAY holds beyond the bytes this frame has written can never be
seen: any other canonical buffer that agrees on those gives the same step, event and registers (so the model's choice of assumption 5
shows nowhere). -/
def Obligations.LeftoverPayloadBytesAreUnobservable : Prop :=
  ∀ (s t : State) (p : Memory), Invariant s → Memory.wf p →
    (∀ a, s.payv = true → a < s.pwp.toNat → Memory.read p a = Memory.read s.pay a) →
    step s = .next t →
    ∃ q, step { s with pay := p } = .next { t with pay := q } ∧ Memory.wf q ∧
      ∀ a, t.payv = true → a < t.pwp.toNat → Memory.read q a = Memory.read t.pay a

/-- 44_recovery.md R166, R176: the replay buffer in front of the input is the source's "back into the unconsumed portion of the input": the
machine whose replay stands in its input makes the same step. -/
def Obligations.ReplayBufferIsRewoundInput : Prop :=
  ∀ s t : State, pinNow s = none → step s = .next t →
    ∃ t', step (rewound s) = .next t' ∧ rewound t' = rewound t

/-! ### Whole frames -/

/-- 30_encoding.md R97 with 43_checksum.md R155: from idle, a well-formed acceptable frame gives exactly its packet, in one step a byte, and
the block is idle again with the rest of the input untouched.  Which checksum is good rests on the zero start of the sums, PRESUMED
(assumption 14). -/
def Obligations.GoodFrameGivesItsPacket : Prop :=
  ∀ (s : State) (c i : U8) (p : List U8) (rest : List Symbol),
    Invariant s → Idle s → PinReleased s → p ≠ [] → Acceptable s c i (BitVec.ofNat 16 p.length) p →
    s.inputs = (goodFrame c i p).map Symbol.byte ++ rest →
    ∃ t, runEvents (p.length + 8) s = some (t, [.packet c i p]) ∧ Idle t ∧ t.inputs = rest ∧
      t.maxlen = s.maxlen ∧ t.config = s.config ∧ t.pos = (s.pos + (p.length + 8)) % 2 ^ s.config.posW

/-- 43_checksum.md section 2 (R156) and 42_validator.md section on V.POLL (R138): a frame of length 0 with its checksum gives a polling
message and no packet, whatever the length table says of its type.  Which checksum is good rests on the zero start of the sums, PRESUMED
(assumption 14). -/
def Obligations.EmptyFrameGivesPollingMessage : Prop :=
  ∀ (s : State) (c i : U8) (rest : List Symbol),
    Invariant s → Idle s → PinReleased s → s.inputs = (goodFrame c i []).map Symbol.byte ++ rest →
    ∃ t, runEvents 8 s = some (t, [.pollingMessage
        { cls := c, id := i, length := 0, payload := some [], receivedChecksum := fletcher16 [c, i, 0, 0] }]) ∧
      Idle t ∧ t.inputs = rest

/-- 42_validator.md R137, R139, 60_exceptions.md R193, R194: a header whose length exceeds MAXLEN, or else differs from the table's, is
rejected on its sixth byte, and scanning goes on from the byte after it. -/
def Obligations.RejectedHeaderIsReportedOnce : Prop :=
  ∀ (s : State) (c i : U8) (n : U16) (rest : List Symbol),
    Invariant s → Idle s → PinReleased s → s.inputs = ([0xB5, 0x62, c, i, lo n, hi n].map Symbol.byte) ++ rest →
    (lmax s.maxlen < n.toNat →
      ∃ t, runEvents 6 s = some (t, [.payloadTooLarge
          { cls := c, id := i, length := n, payload := none, receivedChecksum := 0 } s.maxlen]) ∧
        Idle t ∧ t.inputs = rest ∧ t.pos = (s.pos + 6) % 2 ^ s.config.posW) ∧
    (n.toNat ≤ lmax s.maxlen → n ≠ 0 → ∀ e, lookup s.config c i = some e → e ≠ n →
      ∃ t, runEvents 6 s = some (t, [.wrongPayloadLength
          { cls := c, id := i, length := n, payload := none, receivedChecksum := 0 } e]) ∧
        Idle t ∧ t.inputs = rest ∧ t.pos = (s.pos + 6) % 2 ^ s.config.posW)

/-- 43_checksum.md R157, 44_recovery.md R165 to R168: an acceptable frame with a wrong checksum is reported on its last byte; its body is
then in front of the rest of the input and POS is the index of its class byte.  Which checksum is wrong, and the computed one, rest on the
zero start of the sums, PRESUMED (assumption 14). -/
def Obligations.BadFrameIsReportedAndRewound : Prop :=
  ∀ (s : State) (c i : U8) (n : U16) (p : List U8) (a b : U8) (rest : List Symbol),
    Invariant s → Idle s → PinReleased s → Acceptable s c i n p → ck (coveredBytes c i n p) ≠ (a, b) →
    s.inputs = (wireFrame c i n p a b).map Symbol.byte ++ rest →
    ∃ t, runEvents (p.length + 8) s = some (t, [.failedChecksum
        { cls := c, id := i, length := n, payload := some p, receivedChecksum := b ++ a }
        (fletcher16 (coveredBytes c i n p))]) ∧
      t.replay = coveredBytes c i n p ++ [a, b] ∧ t.inputs = rest ∧ t.st = .scanningForSync ∧ FrameClear t ∧
      t.pos = (s.pos + 2) % 2 ^ s.config.posW

/-- 44_recovery.md R174, the source's core property: a good frame inside the payload of a frame that fails its checksum is still decoded,
after the report of the failure.  That the inner frame is good and the outer one fails rests on the zero start of the sums, PRESUMED
(assumption 14). -/
def Obligations.EmbeddedFrameIsRecovered : Prop :=
  ∀ (s : State) (c i : U8) (n : U16) (before after : List U8) (c' i' : U8) (p : List U8) (a b : U8) (rest : List Symbol),
    Invariant s → Idle s → PinReleased s →
    p ≠ [] → Acceptable s c' i' (BitVec.ofNat 16 p.length) p →
    Acceptable s c i n (before ++ goodFrame c' i' p ++ after) →
    ck (coveredBytes c i n (before ++ goodFrame c' i' p ++ after)) ≠ (a, b) →
    (∀ v ∈ [c, i, lo n, hi n] ++ before, v ≠ 0xB5) →
    s.inputs = (wireFrame c i n (before ++ goodFrame c' i' p ++ after) a b).map Symbol.byte ++ rest →
    ∃ t k f comp, runEvents k s = some (t, [.failedChecksum f comp, .packet c' i' p]) ∧
      t.replay = after ++ [a, b] ∧ t.inputs = rest ∧ t.st = .scanningForSync ∧ FrameClear t

/-- 45_control.md section on FLUSH (R180), 95_test_vectors.md 1.4 property 7: an acceptable frame cut off anywhere before its last byte and
followed by `Flush` emits nothing and leaves the block idle. -/
def Obligations.TruncatedFrameEmitsNothing : Prop :=
  ∀ (s : State) (c i : U8) (n : U16) (p : List U8) (a b : U8) (k : Nat) (rest : List Symbol),
    Invariant s → Idle s → PinReleased s → Acceptable s c i n p → k < p.length + 8 →
    s.inputs = ((wireFrame c i n p a b).take k).map Symbol.byte ++ .flush :: rest →
    ∃ t, runEvents (k + 1) s = some (t, []) ∧ Idle t ∧ t.inputs = rest
end

