-- ==== Sys2Proof/Laws/State.lean ====
section
/-! SUPPORT. One lemma for each field under each named update of the state, so that no proof unfolds the update. -/

namespace Sys2Proof.Machine

open Sys2Proof

/-! ### `acc` (43_checksum.md R151) -/

@[simp] theorem acc_st (v : U8) (s : State) : (acc v s).st = s.st := rfl
@[simp] theorem acc_cls (v : U8) (s : State) : (acc v s).cls = s.cls := rfl
@[simp] theorem acc_id (v : U8) (s : State) : (acc v s).id = s.id := rfl
@[simp] theorem acc_len (v : U8) (s : State) : (acc v s).len = s.len := rfl
@[simp] theorem acc_rxck (v : U8) (s : State) : (acc v s).rxck = s.rxck := rfl
@[simp] theorem acc_pwp (v : U8) (s : State) : (acc v s).pwp = s.pwp := rfl
@[simp] theorem acc_payv (v : U8) (s : State) : (acc v s).payv = s.payv := rfl
@[simp] theorem acc_pay (v : U8) (s : State) : (acc v s).pay = s.pay := rfl
@[simp] theorem acc_cka (v : U8) (s : State) : (acc v s).cka = s.cka + v := rfl
@[simp] theorem acc_ckb (v : U8) (s : State) : (acc v s).ckb = s.ckb + (s.cka + v) := rfl
@[simp] theorem acc_replay (v : U8) (s : State) : (acc v s).replay = s.replay := rfl
@[simp] theorem acc_pos (v : U8) (s : State) : (acc v s).pos = s.pos := rfl
@[simp] theorem acc_maxlen (v : U8) (s : State) : (acc v s).maxlen = s.maxlen := rfl
@[simp] theorem acc_event (v : U8) (s : State) : (acc v s).event = s.event := rfl
@[simp] theorem acc_inputs (v : U8) (s : State) : (acc v s).inputs = s.inputs := rfl
@[simp] theorem acc_resetPin (v : U8) (s : State) : (acc v s).resetPin = s.resetPin := rfl
@[simp] theorem acc_config (v : U8) (s : State) : (acc v s).config = s.config := rfl

/-! ### `advancePos` (20_memory.md R68) -/

@[simp] theorem advancePos_st (s : State) : (advancePos s).st = s.st := rfl
@[simp] theorem advancePos_cls (s : State) : (advancePos s).cls = s.cls := rfl
@[simp] theorem advancePos_id (s : State) : (advancePos s).id = s.id := rfl
@[simp] theorem advancePos_len (s : State) : (advancePos s).len = s.len := rfl
@[simp] theorem advancePos_rxck (s : State) : (advancePos s).rxck = s.rxck := rfl
@[simp] theorem advancePos_pwp (s : State) : (advancePos s).pwp = s.pwp := rfl
@[simp] theorem advancePos_payv (s : State) : (advancePos s).payv = s.payv := rfl
@[simp] theorem advancePos_pay (s : State) : (advancePos s).pay = s.pay := rfl
@[simp] theorem advancePos_cka (s : State) : (advancePos s).cka = s.cka := rfl
@[simp] theorem advancePos_ckb (s : State) : (advancePos s).ckb = s.ckb := rfl
@[simp] theorem advancePos_replay (s : State) : (advancePos s).replay = s.replay := rfl
@[simp] theorem advancePos_pos (s : State) : (advancePos s).pos = (s.pos + 1) % posMod s.config := rfl
@[simp] theorem advancePos_maxlen (s : State) : (advancePos s).maxlen = s.maxlen := rfl
@[simp] theorem advancePos_event (s : State) : (advancePos s).event = s.event := rfl
@[simp] theorem advancePos_inputs (s : State) : (advancePos s).inputs = s.inputs := rfl
@[simp] theorem advancePos_resetPin (s : State) : (advancePos s).resetPin = s.resetPin := rfl
@[simp] theorem advancePos_config (s : State) : (advancePos s).config = s.config := rfl

/-! ### `rewindPos` (44_recovery.md R167) -/

@[simp] theorem rewindPos_st (n : Nat) (s : State) : (rewindPos n s).st = s.st := rfl
@[simp] theorem rewindPos_cls (n : Nat) (s : State) : (rewindPos n s).cls = s.cls := rfl
@[simp] theorem rewindPos_id (n : Nat) (s : State) : (rewindPos n s).id = s.id := rfl
@[simp] theorem rewindPos_len (n : Nat) (s : State) : (rewindPos n s).len = s.len := rfl
@[simp] theorem rewindPos_rxck (n : Nat) (s : State) : (rewindPos n s).rxck = s.rxck := rfl
@[simp] theorem rewindPos_pwp (n : Nat) (s : State) : (rewindPos n s).pwp = s.pwp := rfl
@[simp] theorem rewindPos_payv (n : Nat) (s : State) : (rewindPos n s).payv = s.payv := rfl
@[simp] theorem rewindPos_pay (n : Nat) (s : State) : (rewindPos n s).pay = s.pay := rfl
@[simp] theorem rewindPos_cka (n : Nat) (s : State) : (rewindPos n s).cka = s.cka := rfl
@[simp] theorem rewindPos_ckb (n : Nat) (s : State) : (rewindPos n s).ckb = s.ckb := rfl
@[simp] theorem rewindPos_replay (n : Nat) (s : State) : (rewindPos n s).replay = s.replay := rfl
@[simp] theorem rewindPos_pos (n : Nat) (s : State) : (rewindPos n s).pos = (s.pos + (posMod s.config - n % posMod s.config)) % posMod s.config := rfl
@[simp] theorem rewindPos_maxlen (n : Nat) (s : State) : (rewindPos n s).maxlen = s.maxlen := rfl
@[simp] theorem rewindPos_event (n : Nat) (s : State) : (rewindPos n s).event = s.event := rfl
@[simp] theorem rewindPos_inputs (n : Nat) (s : State) : (rewindPos n s).inputs = s.inputs := rfl
@[simp] theorem rewindPos_resetPin (n : Nat) (s : State) : (rewindPos n s).resetPin = s.resetPin := rfl
@[simp] theorem rewindPos_config (n : Nat) (s : State) : (rewindPos n s).config = s.config := rfl

/-! ### `countSymbol` (20_memory.md R68) -/

@[simp] theorem countSymbol_st (x : Symbol) (s : State) : (countSymbol x s).st = s.st := by cases x <;> rfl
@[simp] theorem countSymbol_cls (x : Symbol) (s : State) : (countSymbol x s).cls = s.cls := by cases x <;> rfl
@[simp] theorem countSymbol_id (x : Symbol) (s : State) : (countSymbol x s).id = s.id := by cases x <;> rfl
@[simp] theorem countSymbol_len (x : Symbol) (s : State) : (countSymbol x s).len = s.len := by cases x <;> rfl
@[simp] theorem countSymbol_rxck (x : Symbol) (s : State) : (countSymbol x s).rxck = s.rxck := by cases x <;> rfl
@[simp] theorem countSymbol_pwp (x : Symbol) (s : State) : (countSymbol x s).pwp = s.pwp := by cases x <;> rfl
@[simp] theorem countSymbol_payv (x : Symbol) (s : State) : (countSymbol x s).payv = s.payv := by cases x <;> rfl
@[simp] theorem countSymbol_pay (x : Symbol) (s : State) : (countSymbol x s).pay = s.pay := by cases x <;> rfl
@[simp] theorem countSymbol_cka (x : Symbol) (s : State) : (countSymbol x s).cka = s.cka := by cases x <;> rfl
@[simp] theorem countSymbol_ckb (x : Symbol) (s : State) : (countSymbol x s).ckb = s.ckb := by cases x <;> rfl
@[simp] theorem countSymbol_replay (x : Symbol) (s : State) : (countSymbol x s).replay = s.replay := by cases x <;> rfl
@[simp] theorem countSymbol_maxlen (x : Symbol) (s : State) : (countSymbol x s).maxlen = s.maxlen := by cases x <;> rfl
@[simp] theorem countSymbol_event (x : Symbol) (s : State) : (countSymbol x s).event = s.event := by cases x <;> rfl
@[simp] theorem countSymbol_inputs (x : Symbol) (s : State) : (countSymbol x s).inputs = s.inputs := by cases x <;> rfl
@[simp] theorem countSymbol_resetPin (x : Symbol) (s : State) : (countSymbol x s).resetPin = s.resetPin := by cases x <;> rfl
@[simp] theorem countSymbol_config (x : Symbol) (s : State) : (countSymbol x s).config = s.config := by cases x <;> rfl

/-! ### `beginStep` (20_memory.md R70) -/

@[simp] theorem beginStep_st (s : State) : (beginStep s).st = s.st := rfl
@[simp] theorem beginStep_cls (s : State) : (beginStep s).cls = s.cls := rfl
@[simp] theorem beginStep_id (s : State) : (beginStep s).id = s.id := rfl
@[simp] theorem beginStep_len (s : State) : (beginStep s).len = s.len := rfl
@[simp] theorem beginStep_rxck (s : State) : (beginStep s).rxck = s.rxck := rfl
@[simp] theorem beginStep_pwp (s : State) : (beginStep s).pwp = s.pwp := rfl
@[simp] theorem beginStep_payv (s : State) : (beginStep s).payv = s.payv := rfl
@[simp] theorem beginStep_pay (s : State) : (beginStep s).pay = s.pay := rfl
@[simp] theorem beginStep_cka (s : State) : (beginStep s).cka = s.cka := rfl
@[simp] theorem beginStep_ckb (s : State) : (beginStep s).ckb = s.ckb := rfl
@[simp] theorem beginStep_replay (s : State) : (beginStep s).replay = s.replay := rfl
@[simp] theorem beginStep_pos (s : State) : (beginStep s).pos = s.pos := rfl
@[simp] theorem beginStep_maxlen (s : State) : (beginStep s).maxlen = s.maxlen := rfl
@[simp] theorem beginStep_event (s : State) : (beginStep s).event = none := rfl
@[simp] theorem beginStep_inputs (s : State) : (beginStep s).inputs = s.inputs := rfl
@[simp] theorem beginStep_resetPin (s : State) : (beginStep s).resetPin = s.resetPin.tail := rfl
@[simp] theorem beginStep_config (s : State) : (beginStep s).config = s.config := rfl

/-! ### `frameReset` (10_state.md R36) -/

@[simp] theorem frameReset_st (s : State) : (frameReset s).st = s.st := rfl
@[simp] theorem frameReset_cls (s : State) : (frameReset s).cls = 0 := rfl
@[simp] theorem frameReset_id (s : State) : (frameReset s).id = 0 := rfl
@[simp] theorem frameReset_len (s : State) : (frameReset s).len = 0 := rfl
@[simp] theorem frameReset_rxck (s : State) : (frameReset s).rxck = 0 := rfl
@[simp] theorem frameReset_pwp (s : State) : (frameReset s).pwp = 0 := rfl
@[simp] theorem frameReset_payv (s : State) : (frameReset s).payv = false := rfl
@[simp] theorem frameReset_pay (s : State) : (frameReset s).pay = s.pay := rfl
@[simp] theorem frameReset_cka (s : State) : (frameReset s).cka = 0 := rfl
@[simp] theorem frameReset_ckb (s : State) : (frameReset s).ckb = 0 := rfl
@[simp] theorem frameReset_replay (s : State) : (frameReset s).replay = s.replay := rfl
@[simp] theorem frameReset_pos (s : State) : (frameReset s).pos = s.pos := rfl
@[simp] theorem frameReset_maxlen (s : State) : (frameReset s).maxlen = s.maxlen := rfl
@[simp] theorem frameReset_event (s : State) : (frameReset s).event = s.event := rfl
@[simp] theorem frameReset_inputs (s : State) : (frameReset s).inputs = s.inputs := rfl
@[simp] theorem frameReset_resetPin (s : State) : (frameReset s).resetPin = s.resetPin := rfl
@[simp] theorem frameReset_config (s : State) : (frameReset s).config = s.config := rfl

/-! ### `emit` (00_scope.md R8) -/

@[simp] theorem emit_st (e : Event) (s : State) : (emit e s).st = s.st := rfl
@[simp] theorem emit_cls (e : Event) (s : State) : (emit e s).cls = s.cls := rfl
@[simp] theorem emit_id (e : Event) (s : State) : (emit e s).id = s.id := rfl
@[simp] theorem emit_len (e : Event) (s : State) : (emit e s).len = s.len := rfl
@[simp] theorem emit_rxck (e : Event) (s : State) : (emit e s).rxck = s.rxck := rfl
@[simp] theorem emit_pwp (e : Event) (s : State) : (emit e s).pwp = s.pwp := rfl
@[simp] theorem emit_payv (e : Event) (s : State) : (emit e s).payv = s.payv := rfl
@[simp] theorem emit_pay (e : Event) (s : State) : (emit e s).pay = s.pay := rfl
@[simp] theorem emit_cka (e : Event) (s : State) : (emit e s).cka = s.cka := rfl
@[simp] theorem emit_ckb (e : Event) (s : State) : (emit e s).ckb = s.ckb := rfl
@[simp] theorem emit_replay (e : Event) (s : State) : (emit e s).replay = s.replay := rfl
@[simp] theorem emit_pos (e : Event) (s : State) : (emit e s).pos = s.pos := rfl
@[simp] theorem emit_maxlen (e : Event) (s : State) : (emit e s).maxlen = s.maxlen := rfl
@[simp] theorem emit_event (e : Event) (s : State) : (emit e s).event = some e := rfl
@[simp] theorem emit_inputs (e : Event) (s : State) : (emit e s).inputs = s.inputs := rfl
@[simp] theorem emit_resetPin (e : Event) (s : State) : (emit e s).resetPin = s.resetPin := rfl
@[simp] theorem emit_config (e : Event) (s : State) : (emit e s).config = s.config := rfl

/-! ### `endFrame` (60_exceptions.md R201) -/

@[simp] theorem endFrame_st (s : State) : (endFrame s).st = .scanningForSync := rfl
@[simp] theorem endFrame_cls (s : State) : (endFrame s).cls = 0 := rfl
@[simp] theorem endFrame_id (s : State) : (endFrame s).id = 0 := rfl
@[simp] theorem endFrame_len (s : State) : (endFrame s).len = 0 := rfl
@[simp] theorem endFrame_rxck (s : State) : (endFrame s).rxck = 0 := rfl
@[simp] theorem endFrame_pwp (s : State) : (endFrame s).pwp = 0 := rfl
@[simp] theorem endFrame_payv (s : State) : (endFrame s).payv = false := rfl
@[simp] theorem endFrame_pay (s : State) : (endFrame s).pay = s.pay := rfl
@[simp] theorem endFrame_cka (s : State) : (endFrame s).cka = 0 := rfl
@[simp] theorem endFrame_ckb (s : State) : (endFrame s).ckb = 0 := rfl
@[simp] theorem endFrame_replay (s : State) : (endFrame s).replay = s.replay := rfl
@[simp] theorem endFrame_pos (s : State) : (endFrame s).pos = s.pos := rfl
@[simp] theorem endFrame_maxlen (s : State) : (endFrame s).maxlen = s.maxlen := rfl
@[simp] theorem endFrame_event (s : State) : (endFrame s).event = s.event := rfl
@[simp] theorem endFrame_inputs (s : State) : (endFrame s).inputs = s.inputs := rfl
@[simp] theorem endFrame_resetPin (s : State) : (endFrame s).resetPin = s.resetPin := rfl
@[simp] theorem endFrame_config (s : State) : (endFrame s).config = s.config := rfl

/-! ### `raise` (60_exceptions.md R201) -/

@[simp] theorem raise_st (e : Event) (s : State) : (raise e s).st = .scanningForSync := rfl
@[simp] theorem raise_cls (e : Event) (s : State) : (raise e s).cls = 0 := rfl
@[simp] theorem raise_id (e : Event) (s : State) : (raise e s).id = 0 := rfl
@[simp] theorem raise_len (e : Event) (s : State) : (raise e s).len = 0 := rfl
@[simp] theorem raise_rxck (e : Event) (s : State) : (raise e s).rxck = 0 := rfl
@[simp] theorem raise_pwp (e : Event) (s : State) : (raise e s).pwp = 0 := rfl
@[simp] theorem raise_payv (e : Event) (s : State) : (raise e s).payv = false := rfl
@[simp] theorem raise_pay (e : Event) (s : State) : (raise e s).pay = s.pay := rfl
@[simp] theorem raise_cka (e : Event) (s : State) : (raise e s).cka = 0 := rfl
@[simp] theorem raise_ckb (e : Event) (s : State) : (raise e s).ckb = 0 := rfl
@[simp] theorem raise_replay (e : Event) (s : State) : (raise e s).replay = s.replay := rfl
@[simp] theorem raise_pos (e : Event) (s : State) : (raise e s).pos = s.pos := rfl
@[simp] theorem raise_maxlen (e : Event) (s : State) : (raise e s).maxlen = s.maxlen := rfl
@[simp] theorem raise_event (e : Event) (s : State) : (raise e s).event = some e := rfl
@[simp] theorem raise_inputs (e : Event) (s : State) : (raise e s).inputs = s.inputs := rfl
@[simp] theorem raise_resetPin (e : Event) (s : State) : (raise e s).resetPin = s.resetPin := rfl
@[simp] theorem raise_config (e : Event) (s : State) : (raise e s).config = s.config := rfl

/-! ### `allocatePayload` (41_field_assembler.md R127) -/

@[simp] theorem allocatePayload_st (s : State) : (allocatePayload s).st = s.st := rfl
@[simp] theorem allocatePayload_cls (s : State) : (allocatePayload s).cls = s.cls := rfl
@[simp] theorem allocatePayload_id (s : State) : (allocatePayload s).id = s.id := rfl
@[simp] theorem allocatePayload_len (s : State) : (allocatePayload s).len = s.len := rfl
@[simp] theorem allocatePayload_rxck (s : State) : (allocatePayload s).rxck = s.rxck := rfl
@[simp] theorem allocatePayload_pwp (s : State) : (allocatePayload s).pwp = 0 := rfl
@[simp] theorem allocatePayload_payv (s : State) : (allocatePayload s).payv = true := rfl
@[simp] theorem allocatePayload_pay (s : State) : (allocatePayload s).pay = s.pay := rfl
@[simp] theorem allocatePayload_cka (s : State) : (allocatePayload s).cka = s.cka := rfl
@[simp] theorem allocatePayload_ckb (s : State) : (allocatePayload s).ckb = s.ckb := rfl
@[simp] theorem allocatePayload_replay (s : State) : (allocatePayload s).replay = s.replay := rfl
@[simp] theorem allocatePayload_pos (s : State) : (allocatePayload s).pos = s.pos := rfl
@[simp] theorem allocatePayload_maxlen (s : State) : (allocatePayload s).maxlen = s.maxlen := rfl
@[simp] theorem allocatePayload_event (s : State) : (allocatePayload s).event = s.event := rfl
@[simp] theorem allocatePayload_inputs (s : State) : (allocatePayload s).inputs = s.inputs := rfl
@[simp] theorem allocatePayload_resetPin (s : State) : (allocatePayload s).resetPin = s.resetPin := rfl
@[simp] theorem allocatePayload_config (s : State) : (allocatePayload s).config = s.config := rfl

/-! ### `reinjectBytes` (44_recovery.md R166) -/

@[simp] theorem reinjectBytes_st (seq : List U8) (s : State) : (reinjectBytes seq s).st = s.st := rfl
@[simp] theorem reinjectBytes_cls (seq : List U8) (s : State) : (reinjectBytes seq s).cls = s.cls := rfl
@[simp] theorem reinjectBytes_id (seq : List U8) (s : State) : (reinjectBytes seq s).id = s.id := rfl
@[simp] theorem reinjectBytes_len (seq : List U8) (s : State) : (reinjectBytes seq s).len = s.len := rfl
@[simp] theorem reinjectBytes_rxck (seq : List U8) (s : State) : (reinjectBytes seq s).rxck = s.rxck := rfl
@[simp] theorem reinjectBytes_pwp (seq : List U8) (s : State) : (reinjectBytes seq s).pwp = s.pwp := rfl
@[simp] theorem reinjectBytes_payv (seq : List U8) (s : State) : (reinjectBytes seq s).payv = s.payv := rfl
@[simp] theorem reinjectBytes_pay (seq : List U8) (s : State) : (reinjectBytes seq s).pay = s.pay := rfl
@[simp] theorem reinjectBytes_cka (seq : List U8) (s : State) : (reinjectBytes seq s).cka = s.cka := rfl
@[simp] theorem reinjectBytes_ckb (seq : List U8) (s : State) : (reinjectBytes seq s).ckb = s.ckb := rfl
@[simp] theorem reinjectBytes_replay (seq : List U8) (s : State) : (reinjectBytes seq s).replay = seq ++ s.replay := rfl
@[simp] theorem reinjectBytes_pos (seq : List U8) (s : State) : (reinjectBytes seq s).pos = (s.pos + (posMod s.config - seq.length % posMod s.config)) % posMod s.config := rfl
@[simp] theorem reinjectBytes_maxlen (seq : List U8) (s : State) : (reinjectBytes seq s).maxlen = s.maxlen := rfl
@[simp] theorem reinjectBytes_event (seq : List U8) (s : State) : (reinjectBytes seq s).event = s.event := rfl
@[simp] theorem reinjectBytes_inputs (seq : List U8) (s : State) : (reinjectBytes seq s).inputs = s.inputs := rfl
@[simp] theorem reinjectBytes_resetPin (seq : List U8) (s : State) : (reinjectBytes seq s).resetPin = s.resetPin := rfl
@[simp] theorem reinjectBytes_config (seq : List U8) (s : State) : (reinjectBytes seq s).config = s.config := rfl

@[simp] theorem countSymbol_byte_pos (v : U8) (s : State) : (countSymbol (.byte v) s).pos = (s.pos + 1) % posMod s.config := rfl
@[simp] theorem countSymbol_flush (s : State) : countSymbol .flush s = s := rfl

theorem posMod_pos (c : Config) : 0 < posMod c := Nat.two_pow_pos _

/-- The registers are clear after every terminal transition (10_state.md R36). -/
theorem endFrame_clear (s : State) : FrameClear (endFrame s) := ⟨rfl, rfl, rfl, rfl, rfl, rfl, rfl, rfl⟩

theorem raise_clear (e : Event) (s : State) : FrameClear (raise e s) := ⟨rfl, rfl, rfl, rfl, rfl, rfl, rfl, rfl⟩

end Sys2Proof.Machine
end

