-- ==== Sys2Proof/Laws/Memory.lean ====
section
/-! SUPPORT. The payload buffer: what a write does to every read, and that the canonical form is kept. -/

namespace Sys2Proof.Machine

open Sys2Proof

namespace Memory

theorem read_of_not_listed {m : Memory} {a : Nat} (h : ∀ c ∈ m, c.1 ≠ a) : read m a = payBlank := by
  induction m with
  | nil => rfl
  | cons c rest ih =>
    have hc : a ≠ c.1 := fun e => h c List.mem_cons_self e.symm
    rw [read, if_neg hc]
    exact ih fun d hd => h d (List.mem_cons_of_mem _ hd)

/-- A canonical buffer lists no index below its first. -/
theorem read_below {m : Memory} {a : Nat} (h : ∀ c ∈ m, a < c.1) : read m a = payBlank :=
  read_of_not_listed fun c hc e => Nat.ne_of_gt (h c hc) e

/-- A write leaves every other index as it was. -/
theorem read_write_other {m : Memory} {a b : Nat} (v : U8) (h : b ≠ a) : read (write m a v) b = read m b := by
  induction m with
  | nil => unfold write; split <;> simp [read, h]
  | cons c rest ih =>
    obtain ⟨k, w⟩ := c
    unfold write
    split
    · split <;> simp [read, h]
    · split
      · subst a
        split <;> simp [read, h]
      · simp only [read, ih]

theorem wf_tail {c : Host.Cell} {m : Memory} (h : wf (c :: m)) : wf m :=
  ⟨(List.pairwise_cons.mp h.1).2, fun d hd => h.2 d (List.mem_cons_of_mem _ hd)⟩

/-- A written index of a canonical buffer reads as the byte written. -/
theorem read_write_same {m : Memory} (a : Nat) (v : U8) (hm : wf m) : read (write m a v) a = v := by
  induction m with
  | nil => unfold write; split <;> simp_all [read]
  | cons c rest ih =>
    obtain ⟨k, w⟩ := c
    have hlt := (List.pairwise_cons.mp hm.1).1
    unfold write
    split
    next hak =>
      split
      next hv =>
        subst v
        refine read_below fun d hd => ?_
        rcases List.mem_cons.mp hd with rfl | hd
        · exact hak
        · exact Nat.lt_trans hak (hlt d hd)
      next => simp [read]
    next hak =>
      split
      next heq =>
        subst a
        split
        next hv => subst v; exact read_below hlt
        next => simp [read]
      next hne => rw [read, if_neg hne]; exact ih (wf_tail hm)

theorem write_mem {m : Memory} {a : Nat} {v : U8} {c : Host.Cell} (h : c ∈ write m a v) :
    c ∈ m ∨ (c = (a, v) ∧ v ≠ payBlank) := by
  induction m with
  | nil => unfold write at h; split at h <;> simp_all
  | cons d rest ih =>
    obtain ⟨k, w⟩ := d
    unfold write at h
    split at h
    · split at h
      · exact .inl h
      · rcases List.mem_cons.mp h with rfl | h
        · exact .inr ⟨rfl, ‹_›⟩
        · exact .inl h
    · split at h
      · split at h
        · exact .inl (List.mem_cons_of_mem _ h)
        · rcases List.mem_cons.mp h with rfl | h
          · exact .inr ⟨rfl, ‹_›⟩
          · exact .inl (List.mem_cons_of_mem _ h)
      · rcases List.mem_cons.mp h with rfl | h
        · exact .inl List.mem_cons_self
        · exact (ih h).imp (List.mem_cons_of_mem _) fun h => h

/-- A write keeps the canonical form. -/
theorem write_wf {m : Memory} {a : Nat} (v : U8) (hm : wf m) (ha : a < Config.payCap) : wf (write m a v) := by
  refine ⟨?_, fun c hc => ?_⟩
  · induction m with
    | nil => unfold write; split <;> simp
    | cons d rest ih =>
      obtain ⟨k, w⟩ := d
      have hlt := (List.pairwise_cons.mp hm.1).1
      unfold write
      split
      next hak =>
        split
        · exact hm.1
        · refine List.pairwise_cons.mpr ⟨fun c hc => ?_, hm.1⟩
          rcases List.mem_cons.mp hc with rfl | hc
          · exact hak
          · exact Nat.lt_trans hak (hlt c hc)
      next hak =>
        split
        next heq =>
          subst a
          split
          · exact (wf_tail hm).1
          · exact List.pairwise_cons.mpr ⟨hlt, (wf_tail hm).1⟩
        next hne =>
          refine List.pairwise_cons.mpr ⟨fun c hc => ?_, ih (wf_tail hm)⟩
          rcases write_mem hc with hc | ⟨rfl, -⟩
          · exact hlt c hc
          · have : k < a := by omega
            exact this
  · rcases write_mem hc with hc | ⟨rfl, hv⟩
    · exact hm.2 c hc
    · exact ⟨ha, hv⟩

/-- A store keeps the canonical form, at every index. -/
theorem store_wf {m : Memory} (a : Nat) (v : U8) (hm : wf m) : wf (store m a v) := by
  unfold store
  split
  · exact write_wf v hm ‹_›
  · exact hm

/-- A store leaves every other index as it was. -/
theorem read_store_other {m : Memory} {a b : Nat} (v : U8) (h : b ≠ a) : read (store m a v) b = read m b := by
  unfold store
  split
  · exact read_write_other v h
  · rfl

/-- What reads as stored after a store: the byte at its index where PAY has that index, and every other byte as before. -/
theorem read_store {m : Memory} (a b : Nat) (v : U8) (hm : wf m) :
    read (store m a v) b = if b = a ∧ b < Config.payCap then v else read m b := by
  unfold store
  by_cases hc : a < Config.payCap
  · rw [if_pos hc]
    by_cases hb : b = a
    · subst b; rw [if_pos ⟨rfl, hc⟩, read_write_same a v hm]
    · rw [if_neg fun h => hb h.1, read_write_other v hb]
  · rw [if_neg hc, if_neg]
    rintro ⟨rfl, h⟩
    exact hc h

@[simp] theorem prefixBytes_length (m : Memory) (n : Nat) : (prefixBytes m n).length = n := by
  simp [prefixBytes]

@[simp] theorem prefixBytes_zero (m : Memory) : prefixBytes m 0 = [] := rfl

theorem prefixBytes_succ (m : Memory) (n : Nat) : prefixBytes m (n + 1) = prefixBytes m n ++ [read m n] := by
  simp [prefixBytes, List.range_succ]

/-- The prefix depends on its own indices only. -/
theorem prefixBytes_congr {m m' : Memory} {n : Nat} (h : ∀ a < n, read m a = read m' a) :
    prefixBytes m n = prefixBytes m' n := by
  refine List.map_congr_left fun a ha => h a (List.mem_range.mp ha)

/-- Storing the next byte appends it (10_state.md R28). -/
theorem prefixBytes_store {m : Memory} {n : Nat} (v : U8) (hm : wf m) (hn : n < Config.payCap) :
    prefixBytes (store m n v) (n + 1) = prefixBytes m n ++ [v] := by
  rw [prefixBytes_succ, read_store n n v hm, if_pos ⟨rfl, hn⟩]
  congr 1
  exact prefixBytes_congr fun a ha => by rw [read_store n a v hm, if_neg fun h => Nat.ne_of_lt ha h.1]

end Memory

/-- The reset buffer is canonical. -/
theorem reset_pay_wf : Memory.wf State.reset.pay := by decide

end Sys2Proof.Machine
end

