-- ==== Sys2Proof/Laws/Decode.lean ====
section
/-! SUPPORT. The dispatch word: its fields, what each row's mask tests, and the operation each symbol selects in each
STATE, said once for all proofs about a step. -/

namespace Sys2Proof.Machine

open Sys2Proof

/-! ### Fields -/

theorem getLsbD_dispatch (f : BitVec 1) (c : BitVec 4) (v : U8) (i : Nat) :
    (dispatch f c v).getLsbD i =
      if i < 8 then v.getLsbD i else if i - 8 < 4 then c.getLsbD (i - 8) else f.getLsbD (i - 8 - 4) := by
  have h : (dispatch f c v).getLsbD i = if i < 8 then v.getLsbD i else (f ++ c).getLsbD (i - 8) :=
    BitVec.getLsbD_append (x := f ++ c) (y := v)
  rw [h, BitVec.getLsbD_append]

theorem vField_dispatch (f : BitVec 1) (c : BitVec 4) (v : U8) : vField (dispatch f c v) = v := by
  apply BitVec.eq_of_getLsbD_eq
  intro i hi
  rw [vField, BitVec.getLsbD_extractLsb', getLsbD_dispatch]
  simp [hi]

theorem stateField_dispatch (f : BitVec 1) (c : BitVec 4) (v : U8) : stateField (dispatch f c v) = c := by
  apply BitVec.eq_of_getLsbD_eq
  intro i hi
  have h1 : ¬ (8 + i < 8) := by omega
  rw [stateField, BitVec.getLsbD_extractLsb', getLsbD_dispatch, if_neg h1]
  simp [hi]

theorem flushField_dispatch (f : BitVec 1) (c : BitVec 4) (v : U8) : flushField (dispatch f c v) = f.getLsbD 0 := by
  rw [flushField, getLsbD_dispatch]
  rfl

/-- A dispatch word is its three fields. -/
theorem dispatch_inj {f f' : BitVec 1} {c c' : BitVec 4} {v v' : U8} :
    dispatch f c v = dispatch f' c' v' ↔ f = f' ∧ c = c' ∧ v = v' := by
  refine ⟨fun h => ⟨?_, ?_, ?_⟩, by rintro ⟨rfl, rfl, rfl⟩; rfl⟩
  · have := congrArg flushField h
    simp only [flushField_dispatch] at this
    apply BitVec.eq_of_getLsbD_eq
    intro i hi
    obtain rfl : i = 0 := by omega
    exact this
  · simpa only [stateField_dispatch] using congrArg stateField h
  · simpa only [vField_dispatch] using congrArg vField h

theorem dispatch_and (f f' : BitVec 1) (c c' : BitVec 4) (v v' : U8) :
    dispatch f c v &&& dispatch f' c' v' = dispatch (f &&& f') (c &&& c') (v &&& v') := by
  unfold dispatch
  rw [BitVec.and_append, BitVec.and_append]

/-! ### What the three masks of the map test -/

theorem mask_flush (f : BitVec 1) (c : BitVec 4) (v : U8) :
    dispatch f c v &&& 0x1000 = 0x1000 ↔ f = 1 := by
  rw [show (0x1000 : DispatchWord) = dispatch 1 0 0 from rfl, dispatch_and, dispatch_inj]
  revert f
  simp
  decide

theorem mask_state (f : BitVec 1) (c k : BitVec 4) (v : U8) :
    dispatch f c v &&& 0x1F00 = dispatch 0 k 0 ↔ f = 0 ∧ c = k := by
  rw [show (0x1F00 : DispatchWord) = dispatch 1 15 0 from rfl, dispatch_and, dispatch_inj,
    show c &&& 15 = c from BitVec.and_allOnes (x := c), show f &&& 1 = f from BitVec.and_allOnes (x := f)]
  simp

theorem mask_all (f : BitVec 1) (c k : BitVec 4) (v u : U8) :
    dispatch f c v &&& 0x1FFF = dispatch 0 k u ↔ f = 0 ∧ c = k ∧ v = u := by
  rw [show (0x1FFF : DispatchWord) = dispatch 1 15 255 from rfl, dispatch_and, dispatch_inj,
    show c &&& 15 = c from BitVec.and_allOnes (x := c), show f &&& 1 = f from BitVec.and_allOnes (x := f),
    show v &&& 255 = v from BitVec.and_allOnes (x := v)]

/-! ### The operation of a word -/

/-- The map as a case distinction on the three fields. -/
def operationAt (c : BitVec 4) (v : U8) : Except DecodeError Instr :=
  if c = 0 then (if v = 0xB5 then .ok .scanSync1 else .ok (.scanSkip v))
  else if c = 1 then (if v = 0x62 then .ok .trlSync2 else if v = 0xB5 then .ok .trlRepeat else .ok (.trlAbort v))
  else if c = 2 then .ok (.fldClass v)
  else if c = 3 then .ok (.fldId v)
  else if c = 4 then .ok (.fldLenlo v)
  else if c = 5 then .ok (.fldLenhi v)
  else if c = 6 then .ok (.fldPay v)
  else if c = 7 then .ok (.fldCklo v)
  else if c = 8 then .ok (.fldCkhi v)
  else .error (.reservedState c)

set_option simprocs false in
/-- First match over the rows is that case distinction. -/
theorem decodeWord_dispatch (f : BitVec 1) (c : BitVec 4) (v : U8) :
    decodeWord (dispatch f c v) = if f = 1 then .ok .flush else operationAt c v := by
  by_cases hf : f = 1
  · simp only [decodeWord, opRows, firstMatch, mask_flush, hf, if_true]
  · obtain rfl : f = 0 := by revert f; decide
    have r2 : dispatch 0 c v &&& 0x1FFF = 0x00B5 ↔ _ := mask_all 0 c 0 v 0xB5
    have r3 : dispatch 0 c v &&& 0x1F00 = 0x0000 ↔ _ := mask_state 0 c 0 v
    have r4 : dispatch 0 c v &&& 0x1FFF = 0x0162 ↔ _ := mask_all 0 c 1 v 0x62
    have r5 : dispatch 0 c v &&& 0x1FFF = 0x01B5 ↔ _ := mask_all 0 c 1 v 0xB5
    have r6 : dispatch 0 c v &&& 0x1F00 = 0x0100 ↔ _ := mask_state 0 c 1 v
    have r7 : dispatch 0 c v &&& 0x1F00 = 0x0200 ↔ _ := mask_state 0 c 2 v
    have r8 : dispatch 0 c v &&& 0x1F00 = 0x0300 ↔ _ := mask_state 0 c 3 v
    have r9 : dispatch 0 c v &&& 0x1F00 = 0x0400 ↔ _ := mask_state 0 c 4 v
    have r10 : dispatch 0 c v &&& 0x1F00 = 0x0500 ↔ _ := mask_state 0 c 5 v
    have r11 : dispatch 0 c v &&& 0x1F00 = 0x0600 ↔ _ := mask_state 0 c 6 v
    have r12 : dispatch 0 c v &&& 0x1F00 = 0x0700 ↔ _ := mask_state 0 c 7 v
    have r13 : dispatch 0 c v &&& 0x1F00 = 0x0800 ↔ _ := mask_state 0 c 8 v
    simp only [decodeWord, opRows, firstMatch, mask_flush, stateField_dispatch, vField_dispatch, hf, if_false,
      r2, r3, r4, r5, r6, r7, r8, r9, r10, r11, r12, r13, operationAt, true_and]
    clear r2 r3 r4 r5 r6 r7 r8 r9 r10 r11 r12 r13 hf
    by_cases h0 : c = 0
    · subst h0; by_cases hv : v = 0xB5 <;> simp only [hv, and_self, if_true, if_false, and_false]
    simp only [h0, if_false, false_and]
    by_cases h1 : c = 1
    · simp only [h1, true_and, if_true]
      by_cases hv : v = 0x62
      · simp only [hv, if_true]
      · by_cases hw : v = 0xB5
        · simp only [hv, if_false]; simp only [hw, if_true]
        · simp only [hv, hw, if_false]
    simp only [h1, if_false, false_and]
    by_cases h2 : c = 2
    · simp only [h2, if_true]
    simp only [h2, if_false]
    by_cases h3 : c = 3
    · simp only [h3, if_true]
    simp only [h3, if_false]
    by_cases h4 : c = 4
    · simp only [h4, if_true]
    simp only [h4, if_false]
    by_cases h5 : c = 5
    · simp only [h5, if_true]
    simp only [h5, if_false]
    by_cases h6 : c = 6
    · simp only [h6, if_true]
    simp only [h6, if_false]
    by_cases h7 : c = 7
    · simp only [h7, if_true]
    simp only [h7, if_false]
    by_cases h8 : c = 8
    · simp only [h8, if_true]
    simp only [h8, if_false]

/-- The operation of a symbol in a STATE: the tables of 40_scanner.md R118 and 41_field_assembler.md R129, and FLUSH. -/
def operationOf : Symbol → DecState → Instr
  | .flush, _ => .flush
  | .byte v, .scanningForSync => if v = 0xB5 then .scanSync1 else .scanSkip v
  | .byte v, .expectSyncTrailer => if v = 0x62 then .trlSync2 else if v = 0xB5 then .trlRepeat else .trlAbort v
  | .byte v, .expectClass => .fldClass v
  | .byte v, .expectId => .fldId v
  | .byte v, .expectLengthLow => .fldLenlo v
  | .byte v, .expectLengthHigh => .fldLenhi v
  | .byte v, .accumulatingPayload => .fldPay v
  | .byte v, .expectChecksumLow => .fldCklo v
  | .byte v, .expectChecksumHigh => .fldCkhi v

/-- Every symbol selects its operation, in every STATE (30_encoding.md R91). -/
theorem decodeWord_dispatchWord (x : Symbol) (st : DecState) :
    decodeWord (dispatchWord x st) = .ok (operationOf x st) := by
  cases x with
  | flush => simp [dispatchWord, decodeWord_dispatch, operationOf]
  | byte v =>
    simp only [dispatchWord, decodeWord_dispatch]
    cases st <;> simp [DecState.code, operationAt, operationOf] <;> split_ifs <;> rfl

end Sys2Proof.Machine
end

