-- ==== Sys2Proof/Laws/Flags.lean ====
section
/-! SUPPORT. The slices of a 16-bit value, the five predicates and the two decisions, in the words of their rules. -/

namespace Sys2Proof.Machine

open Sys2Proof

/-! ### Slices (20_memory.md R55) -/

theorem getLsbD_combine (a b : U8) (i : Nat) :
    (combine a b).getLsbD i = if i < 8 then a.getLsbD i else b.getLsbD (i - 8) :=
  BitVec.getLsbD_append (x := b) (y := a)

@[simp] theorem lo_combine (a b : U8) : lo (combine a b) = a := by
  apply BitVec.eq_of_getLsbD_eq
  intro i h
  rw [lo, BitVec.getLsbD_extractLsb', getLsbD_combine]
  simp [h]

@[simp] theorem hi_combine (a b : U8) : hi (combine a b) = b := by
  apply BitVec.eq_of_getLsbD_eq
  intro i h
  rw [hi, BitVec.getLsbD_extractLsb', getLsbD_combine]
  simp [h]

@[simp] theorem combine_lo_hi (x : U16) : combine (lo x) (hi x) = x := by
  apply BitVec.eq_of_getLsbD_eq
  intro i h
  rw [getLsbD_combine, lo, hi, BitVec.getLsbD_extractLsb', BitVec.getLsbD_extractLsb']
  by_cases h8 : i < 8
  · simp [h8]
  · have h1 : 8 + (i - 8) = i := by omega
    have h2 : i - 8 < 8 := by omega
    simp [h8, h1, h2]

@[simp] theorem lo_setLo (x : U16) (v : U8) : lo (setLo x v) = v := lo_combine _ _
@[simp] theorem hi_setLo (x : U16) (v : U8) : hi (setLo x v) = hi x := hi_combine _ _
@[simp] theorem lo_setHi (x : U16) (v : U8) : lo (setHi x v) = lo x := lo_combine _ _
@[simp] theorem hi_setHi (x : U16) (v : U8) : hi (setHi x v) = v := hi_combine _ _

/-- A 16-bit value is its two bytes. -/
theorem lo_hi_ext {x y : U16} (h1 : lo x = lo y) (h2 : hi x = hi y) : x = y := by
  rw [← combine_lo_hi x, ← combine_lo_hi y, h1, h2]

@[simp] theorem lo_zero : lo 0#16 = 0#8 := rfl
@[simp] theorem hi_zero : hi 0#16 = 0#8 := rfl

/-! ### The checksum fold (43_checksum.md R150) -/

theorem ck_append_one (s : List U8) (v : U8) : ck (s ++ [v]) = accStep (ck s) v := by
  simp [ck, List.foldl_append]

/-- `acc` on accumulators that hold a fold makes them hold the longer fold (R152). -/
theorem acc_sums {s : State} {l : List U8} (v : U8) (h : (s.cka, s.ckb) = ck l) :
    ((acc v s).cka, (acc v s).ckb) = ck (l ++ [v]) := by
  rw [ck_append_one, ← h]; rfl

/-! ### The predicates (10_state.md R33) -/

theorem tooLarge_iff (s : State) : tooLarge s = true ↔ s.maxlen ≠ 0 ∧ s.maxlen.toNat < s.len.toNat := by
  simp [tooLarge, BitVec.ult]

theorem isPoll_iff (s : State) : isPoll s = true ↔ s.len = 0 := by simp [isPoll]

theorem ckMatch_iff (s : State) : ckMatch s = true ↔ combine s.cka s.ckb = s.rxck := by
  simp [ckMatch, computedChecksum]

theorem payDone_iff (s : State) : payDone s = true ↔ s.pwp.toNat + 1 = s.len.toNat := by simp [payDone]

theorem wrongLen_eq_some {s : State} {e : U16} :
    wrongLen s = some e ↔ lookup s.config s.cls s.id = some e ∧ s.len ≠ e := by
  unfold wrongLen
  cases lookup s.config s.cls s.id with
  | none => simp
  | some e' =>
    by_cases h : s.len = e'
    · simp only [h, if_true]
      constructor
      · intro hh; simp at hh
      · rintro ⟨h1, h2⟩; exact absurd (Option.some.inj h1) h2
    · simp only [h, if_false]
      constructor
      · intro hh; obtain rfl := Option.some.inj hh; exact ⟨rfl, h⟩
      · rintro ⟨h1, -⟩; exact h1

/-- A length the validator does not call too large is at most LMAX (42_validator.md R143). -/
theorem len_le_lmax {s : State} (h : tooLarge s = false) : s.len.toNat ≤ lmax s.maxlen := by
  have h' : ¬ (s.maxlen ≠ 0 ∧ s.maxlen.toNat < s.len.toNat) := fun hh => by
    rw [← tooLarge_iff, h] at hh; cases hh
  unfold lmax
  split
  · have := s.len.isLt; omega
  next h0 => exact Nat.le_of_not_lt fun hh => h' ⟨h0, hh⟩

end Sys2Proof.Machine
end

