-- ==== Sys2Proof/Laws/Step.lean ====
section
/-! SUPPORT. What a step is, by what the reset pin shows and where the symbol comes from; and that every meaning answers a next state. -/

namespace Sys2Proof.Machine

open Sys2Proof

/-- Reset wins (60_exceptions.md R200). -/
theorem step_pin {s : State} {cfg : U16} (h : pinNow s = some cfg) : step s = exec (.reset cfg) (beginStep s) := by
  simp [step, select, h]

/-- A byte of REPLAY is taken first (20_memory.md R68). -/
theorem step_replay {s : State} {v : U8} {rest : List U8} (hp : pinNow s = none) (h : s.replay = v :: rest) :
    step s = exec (operationOf (.byte v) s.st) (advancePos { beginStep s with replay := rest }) := by
  have : takeSymbol (beginStep s) = some (.byte v, { beginStep s with replay := rest }) := by
    simp [takeSymbol, h]
  simp [step, select, hp, this, decodeWord_dispatchWord, countSymbol]

/-- A symbol of IN is taken while REPLAY is empty (20_memory.md R68). -/
theorem step_input {s : State} {x : Symbol} {rest : List Symbol} (hp : pinNow s = none) (hr : s.replay = [])
    (h : s.inputs = x :: rest) :
    step s = exec (operationOf x s.st) (countSymbol x { beginStep s with inputs := rest }) := by
  have : takeSymbol (beginStep s) = some (x, { beginStep s with inputs := rest }) := by
    simp [takeSymbol, hr, h]
  simp [step, select, hp, this, decodeWord_dispatchWord]

/-- With nothing to take, the block holds its state. -/
theorem step_quiet {s : State} (hp : pinNow s = none) (hr : s.replay = []) (hi : s.inputs = []) :
    step s = .next (beginStep s) := by
  have : takeSymbol (beginStep s) = none := by simp [takeSymbol, hr, hi]
  simp [step, select, hp, this]

/-- Everything a step can be. -/
theorem step_is (s : State) :
    (∃ cfg, pinNow s = some cfg ∧ step s = exec (.reset cfg) (beginStep s)) ∨
    (pinNow s = none ∧ s.replay = [] ∧ s.inputs = [] ∧ step s = .next (beginStep s)) ∨
    (∃ v rest, pinNow s = none ∧ s.replay = v :: rest ∧
      step s = exec (operationOf (.byte v) s.st) (advancePos { beginStep s with replay := rest })) ∨
    (∃ v rest, pinNow s = none ∧ s.replay = [] ∧ s.inputs = .byte v :: rest ∧
      step s = exec (operationOf (.byte v) s.st) (advancePos { beginStep s with inputs := rest })) ∨
    (∃ rest, pinNow s = none ∧ s.replay = [] ∧ s.inputs = .flush :: rest ∧
      step s = exec .flush { beginStep s with inputs := rest }) := by
  cases hp : pinNow s with
  | some cfg => exact .inl ⟨cfg, rfl, step_pin hp⟩
  | none =>
    refine .inr ?_
    cases hr : s.replay with
    | cons v rest => exact .inr (.inl ⟨v, rest, rfl, rfl, step_replay hp hr⟩)
    | nil =>
      cases hi : s.inputs with
      | nil => exact .inl ⟨rfl, rfl, rfl, step_quiet hp hr hi⟩
      | cons x rest =>
        cases x with
        | byte v => exact .inr (.inr (.inl ⟨v, rest, rfl, rfl, rfl, step_input hp hr hi⟩))
        | flush => exact .inr (.inr (.inr ⟨rest, rfl, rfl, rfl, step_input hp hr hi⟩))

/-- CK.MISMATCH as one state: the event with the record of `s`, the body re-injected, the frame ended (43_checksum.md R157). -/
theorem execCkMismatch_eq (s : State) :
    execCkMismatch s =
      .next (raise (.failedChecksum (snap s) (computedChecksum s)) (reinjectBytes (frameBody s) s)) := rfl

/-- FLD.LENHI by its verdict (41_field_assembler.md R123). -/
theorem execFldLenhi_eq (v : U8) (s : State) :
    execFldLenhi v s = .next
      (let t := acc v { s with len := setHi s.len v }
       match verdict t with
       | .tooLarge => raise (.payloadTooLarge (snap t) t.maxlen) t
       | .poll => { allocatePayload t with st := .expectChecksumLow }
       | .wrongLen e => raise (.wrongPayloadLength (snap t) e) t
       | .accept => { allocatePayload t with st := .accumulatingPayload }) := by
  simp only [execFldLenhi]
  cases verdict (acc v { s with len := setHi s.len v }) <;> rfl

/-- FLD.CKHI by its outcome (41_field_assembler.md R126). -/
theorem execFldCkhi_eq (v : U8) (s : State) :
    execFldCkhi v s = .next
      (let t := { s with rxck := setHi s.rxck v }
       match ckOutcome t with
       | .packet => raise (.packet t.cls t.id (Memory.prefixBytes t.pay t.len.toNat)) t
       | .poll => raise (.pollingMessage (snap t)) t
       | .mismatch => raise (.failedChecksum (snap t) (computedChecksum t)) (reinjectBytes (frameBody t) t)) := by
  simp only [execFldCkhi]
  cases ckOutcome { s with rxck := setHi s.rxck v } <;> rfl

/-- Every meaning answers a next state (00_scope.md R10). -/
theorem exec_next (i : Instr) (s : State) : ∃ t, exec i s = .next t := by
  cases i with
  | fldLenhi v => exact ⟨_, execFldLenhi_eq v s⟩
  | fldCkhi v => exact ⟨_, execFldCkhi_eq v s⟩
  | _ => exact ⟨_, rfl⟩

end Sys2Proof.Machine
end

