-- ==== Sys2Proof/Laws/PerInstr.lean ====
section
/-! SUPPORT. EncodingFitsRow: an operation's word, where it has one, is matched by the row of the operation map that carries its
mnemonic (30_encoding.md R90). -/

namespace Sys2Proof.Laws.EncodingFitsRow

open Sys2Proof Sys2Proof.Machine

/-- The word of `i` matches the mask and pattern of the row named after `i`. -/
def Statement (i : Instr) : Prop :=
  ∀ d, encode i = some d → ∃ r ∈ opRows, r.mnemonic = i.mnemonic ∧ d &&& r.mask = r.pat

theorem of_row {i : Instr} {d : DispatchWord} (r : OpRow) (h : encode i = some d) (hr : r ∈ opRows)
    (hm : r.mnemonic = i.mnemonic) (hd : d &&& r.mask = r.pat) : Statement i := by
  intro d' h'
  rw [h] at h'
  obtain rfl := Option.some.inj h'
  exact ⟨r, hr, hm, hd⟩

theorem of_none {i : Instr} (h : encode i = none) : Statement i := by
  intro d h'
  rw [h] at h'
  cases h'

theorem of_state (k : BitVec 4) (v : U8) : dispatch 0 k v &&& 0x1F00 = dispatch 0 k 0 :=
  (mask_state 0 k k v).mpr ⟨rfl, rfl⟩

theorem flush : Statement .flush :=
  of_row opRows[0] rfl (List.getElem_mem _) rfl (by decide)

theorem scanSync1 : Statement .scanSync1 :=
  of_row opRows[1] rfl (List.getElem_mem _) rfl (by decide)

theorem scanSkip (v : U8) : Statement (.scanSkip v) :=
  of_row opRows[2] rfl (List.getElem_mem _) rfl (of_state 0 v)

theorem trlSync2 : Statement .trlSync2 :=
  of_row opRows[3] rfl (List.getElem_mem _) rfl (by decide)

theorem trlRepeat : Statement .trlRepeat :=
  of_row opRows[4] rfl (List.getElem_mem _) rfl (by decide)

theorem trlAbort (v : U8) : Statement (.trlAbort v) :=
  of_row opRows[5] rfl (List.getElem_mem _) rfl (of_state 1 v)

theorem fldClass (v : U8) : Statement (.fldClass v) :=
  of_row opRows[6] rfl (List.getElem_mem _) rfl (of_state 2 v)

theorem fldId (v : U8) : Statement (.fldId v) :=
  of_row opRows[7] rfl (List.getElem_mem _) rfl (of_state 3 v)

theorem fldLenlo (v : U8) : Statement (.fldLenlo v) :=
  of_row opRows[8] rfl (List.getElem_mem _) rfl (of_state 4 v)

theorem fldLenhi (v : U8) : Statement (.fldLenhi v) :=
  of_row opRows[9] rfl (List.getElem_mem _) rfl (of_state 5 v)

theorem fldPay (v : U8) : Statement (.fldPay v) :=
  of_row opRows[10] rfl (List.getElem_mem _) rfl (of_state 6 v)

theorem fldCklo (v : U8) : Statement (.fldCklo v) :=
  of_row opRows[11] rfl (List.getElem_mem _) rfl (of_state 7 v)

theorem fldCkhi (v : U8) : Statement (.fldCkhi v) :=
  of_row opRows[12] rfl (List.getElem_mem _) rfl (of_state 8 v)

theorem vTooLarge : Statement .vTooLarge := of_none rfl

theorem vPoll : Statement .vPoll := of_none rfl

theorem vWrongLen (e : U16) : Statement (.vWrongLen e) := of_none rfl

theorem vAccept : Statement .vAccept := of_none rfl

theorem ckPacket : Statement .ckPacket := of_none rfl

theorem ckPoll : Statement .ckPoll := of_none rfl

theorem ckMismatch : Statement .ckMismatch := of_none rfl

theorem reinject : Statement .reinject := of_none rfl

theorem reset (cfg : U16) : Statement (.reset cfg) := of_none rfl

end Sys2Proof.Laws.EncodingFitsRow
end

