-- ==== Sys2Proof/Laws/Stream.lean ====
section
/-! SUPPORT. What one byte does to the stream: the two sides of the byte source (taken, still to take), the body in progress and POS.
One lemma for the scanner's STATEs and one for the body's; runs one step at a time. -/

namespace Sys2Proof.Machine

open Sys2Proof

/-! ### Runs -/

theorem run_succ (M : Host.Core) (k : Nat) (s : M.State) :
    M.run (k + 1) s = (match M.step s with
      | .next u => M.run k u
      | .fault f => .fault f
      | .refused r => .refused r) := rfl

theorem runEvents_succ {k : Nat} {s t : State} {es : List Event} :
    runEvents (k + 1) s = some (t, es) ↔
      ∃ u fs, step s = .next u ∧ runEvents k u = some (t, fs) ∧ es = u.event.toList ++ fs := by
  simp only [runEvents]
  cases hs : step s with
  | next u =>
    simp only [Option.map_eq_some_iff, Prod.exists, Host.Outcome.next.injEq]
    constructor
    · rintro ⟨a, b, h1, h2⟩; cases h2; exact ⟨u, b, rfl, h1, rfl⟩
    · rintro ⟨_, b, rfl, h1, rfl⟩; exact ⟨t, b, h1, rfl⟩
  | fault => simp
  | refused => simp

theorem runEvents_add {k m : Nat} : ∀ {s t u : State} {es fs : List Event},
    runEvents k s = some (t, es) → runEvents m t = some (u, fs) → runEvents (k + m) s = some (u, es ++ fs) := by
  induction k with
  | zero =>
    intro s t u es fs h1 h2
    simp only [runEvents, Option.some.injEq, Prod.mk.injEq] at h1
    obtain ⟨rfl, rfl⟩ := h1
    simpa using h2
  | succ k ih =>
    intro s t u es fs h1 h2
    obtain ⟨w, gs, ha, hb, rfl⟩ := runEvents_succ.mp h1
    rw [show k + 1 + m = (k + m) + 1 by omega]
    exact runEvents_succ.mpr ⟨w, _, ha, ih hb h2, by simp⟩

/-! ### The input is not read by a meaning (20_memory.md R51) -/

theorem exec_with_inputs (i : Instr) (s : State) (l : List Symbol) :
    exec i { s with inputs := l } = match exec i s with
      | .next t => .next { t with inputs := l }
      | .fault f => .fault f
      | .refused r => .refused r := by
  cases i with
  | fldLenhi v =>
    simp only [exec, execFldLenhi_eq]
    have : verdict (acc v { s with inputs := l, len := setHi s.len v }) =
        verdict (acc v { s with len := setHi s.len v }) := rfl
    rw [this]
    cases verdict (acc v { s with len := setHi s.len v }) <;> rfl
  | fldCkhi v =>
    simp only [exec, execFldCkhi_eq]
    have : ckOutcome { s with inputs := l, rxck := setHi s.rxck v } = ckOutcome { s with rxck := setHi s.rxck v } := rfl
    rw [this]
    cases ckOutcome { s with rxck := setHi s.rxck v } <;> rfl
  | _ => rfl

/-! ### One byte -/

/-- A byte the scanner takes: no event, and nothing but STATE and the frame registers is touched (40_scanner.md R111 to R115). -/
theorem idle_byte {s t u : State} {v : U8} (hb : s.st.inBody = false) (e0 : t.event = none)
    (he : exec (operationOf (.byte v) s.st) t = .next u) :
    (u.maxlen = t.maxlen ∧ u.config = t.config ∧ u.inputs = t.inputs ∧ u.resetPin = t.resetPin ∧ u.replay = t.replay ∧
      u.pos = t.pos ∧ u.event = none) ∧
    ((u.st = .expectClass ∧ s.st = .expectSyncTrailer) ∨ u.st = .expectSyncTrailer ∨ u.st = .scanningForSync) ∧
    bodySoFar u = [] := by
  cases hst : s.st <;> rw [hst] at hb he <;> (try cases hb) <;> simp only [operationOf] at he
  · split at he <;> cases he <;>
      exact ⟨⟨rfl, rfl, rfl, rfl, rfl, rfl, e0⟩, by simp, by simp [bodySoFar, coveredSoFar]⟩
  · split at he
    · cases he; exact ⟨⟨rfl, rfl, rfl, rfl, rfl, rfl, e0⟩, by simp, by simp [bodySoFar, coveredSoFar]⟩
    · split at he <;> cases he <;>
        exact ⟨⟨rfl, rfl, rfl, rfl, rfl, rfl, e0⟩, by simp, by simp [bodySoFar, coveredSoFar]⟩

/-- A length the validator polls on is 0. -/
theorem len_of_poll {w : State} (h : verdict w = .poll) : w.len = 0 := by
  unfold verdict at h
  split at h
  · cases h
  · split at h
    · exact (isPoll_iff w).mp ‹_›
    · split at h <;> cases h

/-- A byte of a frame's body, on the state `t` in which it has been taken from `s`: the body grows by it, or the frame fails and the
whole body with it goes in front of REPLAY, or the frame ends otherwise and nothing goes back (44_recovery.md R165, R166, R173). -/
theorem body_byte {s t u : State} {v : U8} (h : Invariant s) (hb : s.st.inBody = true)
    (e1 : { t with replay := s.replay, inputs := s.inputs, pos := s.pos, event := s.event, resetPin := s.resetPin } = s)
    (e0 : t.event = none) (he : exec (operationOf (.byte v) s.st) t = .next u) :
    (u.maxlen = s.maxlen ∧ u.config = s.config ∧ u.inputs = t.inputs ∧ u.resetPin = t.resetPin) ∧
    ((u.st.inBody = true ∧ bodySoFar u = bodySoFar s ++ [v] ∧ u.replay = t.replay ∧ u.pos = t.pos ∧ u.event = none ∧
        (bodySoFar u).length ≤ lmax s.maxlen + 5) ∨
      (u.st = .scanningForSync ∧ FrameClear u ∧ (∃ f c, u.event = some (.failedChecksum f c)) ∧
        u.replay = bodySoFar s ++ [v] ++ t.replay ∧ u.pos = (rewindPos (bodySoFar s ++ [v]).length t).pos ∧
        (bodySoFar s).length ≤ lmax s.maxlen + 5) ∨
      (u.st = .scanningForSync ∧ FrameClear u ∧ (∀ f c, u.event ≠ some (.failedChecksum f c)) ∧ u.replay = t.replay ∧
        u.pos = t.pos)) := by
  have q2 : t.cls = s.cls := by rw [← e1]
  have q3 : t.id = s.id := by rw [← e1]
  have q4 : t.len = s.len := by rw [← e1]
  have q5 : t.rxck = s.rxck := by rw [← e1]
  have q6 : t.pwp = s.pwp := by rw [← e1]
  have q8 : t.pay = s.pay := by rw [← e1]
  have q9 : t.maxlen = s.maxlen := by rw [← e1]
  have q10 : t.config = s.config := by rw [← e1]
  cases hst : s.st with
  | scanningForSync => rw [hst] at hb; cases hb
  | expectSyncTrailer => rw [hst] at hb; cases hb
  | expectClass =>
    rw [hst] at he; cases he
    exact ⟨⟨q9, q10, rfl, rfl⟩, .inl ⟨rfl, by simp [bodySoFar, coveredSoFar, hst], rfl, rfl, e0,
      by simp [bodySoFar, coveredSoFar]⟩⟩
  | expectId =>
    rw [hst] at he; cases he
    exact ⟨⟨q9, q10, rfl, rfl⟩, .inl ⟨rfl, by simp [bodySoFar, coveredSoFar, hst, q2], rfl, rfl, e0,
      by simp [bodySoFar, coveredSoFar]⟩⟩
  | expectLengthLow =>
    rw [hst] at he; cases he
    exact ⟨⟨q9, q10, rfl, rfl⟩, .inl ⟨rfl, by simp [bodySoFar, coveredSoFar, hst, q2, q3], rfl, rfl, e0,
      by simp [bodySoFar, coveredSoFar]⟩⟩
  | expectLengthHigh =>
    rw [hst] at he
    simp only [operationOf, exec, execFldLenhi_eq, Host.Outcome.next.injEq] at he
    subst u
    refine ⟨by split <;> exact ⟨q9, q10, rfl, rfl⟩, ?_⟩
    split
    · exact .inr (.inr ⟨rfl, raise_clear _ _, by simp, rfl, rfl⟩)
    · have hz := len_of_poll ‹_›
      rw [acc_len] at hz
      dsimp only at hz
      refine .inl ⟨rfl, ?_, rfl, rfl, e0, ?_⟩
      · simp [bodySoFar, coveredSoFar, hst, headerBytes, q2, q3, q4] at *
        rw [hz]; simp
      · simp [bodySoFar, coveredSoFar, headerBytes, hz]
    · exact .inr (.inr ⟨rfl, raise_clear _ _, by simp, rfl, rfl⟩)
    · refine .inl ⟨rfl, ?_, rfl, rfl, e0, ?_⟩
      · simp [bodySoFar, coveredSoFar, hst, headerBytes, q2, q3, q4]
      · simp [bodySoFar, coveredSoFar, headerBytes]
  | accumulatingPayload =>
    have hlt := h.pwpFilling hst
    have hl2 := s.len.isLt
    have hcap : s.pwp.toNat < Config.payCap := by simp only [Config.payCap]; omega
    have hlb := h.lenBound (by rw [hst]; rfl)
    rw [hst] at he
    simp only [operationOf, exec, execFldPay, Host.Outcome.next.injEq] at he
    subst u
    have hp1 : (s.pwp + 1).toNat = s.pwp.toNat + 1 := by rw [BitVec.toNat_add]; simp; omega
    have hw := Memory.prefixBytes_store v h.payWf hcap
    refine ⟨⟨q9, q10, rfl, rfl⟩, .inl ?_⟩
    cases hd : payDone t with
    | true =>
      have hd' := (payDone_iff t).mp hd
      rw [q6, q4] at hd'
      refine ⟨rfl, ?_, rfl, rfl, e0, ?_⟩
      · simp only [bodySoFar, coveredSoFar, hst, headerBytes, acc_st, acc_cls, acc_id, acc_len, acc_pay, if_true, q2, q3,
          q4, q6, q8]
        rw [List.append_assoc, ← hw, ← hd']
      · simp [bodySoFar, coveredSoFar, headerBytes, q4]; omega
    | false =>
      refine ⟨rfl, ?_, rfl, rfl, e0, ?_⟩
      · simp only [bodySoFar, coveredSoFar, hst, headerBytes, acc_st, acc_cls, acc_id, acc_len, acc_pay, acc_pwp, if_false,
          q2, q3, q4, q6, q8, Bool.false_eq_true]
        rw [List.append_assoc, ← hw, hp1]
      · simp only [bodySoFar, coveredSoFar, headerBytes, acc_st, acc_cls, acc_id, acc_len, acc_pay, acc_pwp, if_false, q2,
          q3, q4, q6, q8, Bool.false_eq_true, hp1]
        simp; omega
  | expectChecksumLow =>
    have hlb := h.lenBound (by rw [hst]; rfl)
    rw [hst] at he; cases he
    refine ⟨⟨q9, q10, rfl, rfl⟩, .inl ⟨rfl, ?_, rfl, rfl, e0, ?_⟩⟩
    · simp only [bodySoFar, coveredSoFar, hst, headerBytes, q2, q3, q4, q8, lo_setLo]
    · simp [bodySoFar, coveredSoFar, headerBytes, q4]; omega
  | expectChecksumHigh =>
    have hlb := h.lenBound (by rw [hst]; rfl)
    rw [hst] at he
    simp only [operationOf, exec, execFldCkhi_eq, Host.Outcome.next.injEq] at he
    subst u
    refine ⟨by split <;> exact ⟨q9, q10, rfl, rfl⟩, ?_⟩
    split
    · exact .inr (.inr ⟨rfl, raise_clear _ _, by simp, rfl, rfl⟩)
    · exact .inr (.inr ⟨rfl, raise_clear _ _, by simp, rfl, rfl⟩)
    · have hb : frameBody { t with rxck := setHi t.rxck v } = bodySoFar s ++ [v] := by
        simp [frameBody, headerBytes, bodySoFar, coveredSoFar, hst, q2, q3, q4, q5, q8]
      refine .inr (.inl ⟨rfl, raise_clear _ _, ⟨_, _, rfl⟩, ?_, ?_, ?_⟩)
      · rw [hb]; rfl
      · rw [hb]; rfl
      · simp [bodySoFar, coveredSoFar, hst, headerBytes]; omega

end Sys2Proof.Machine
end

