-- ==== Sys2Proof/Machine/EventPort.lean ====
section
/-! DEFINITION. The tag and the channel of an output (60_exceptions.md R190); the rest of the physical record is left out, as
R190 asks. -/

namespace Sys2Proof.Machine

open Sys2Proof

/-- The output channels: A carries data, B diagnostics. -/
inductive Channel where
  | data
  | diagnostics
  deriving DecidableEq, Repr

/-- `ev_tag[2:0]`: 0 where the step emits nothing; 6 and 7 are reserved. -/
def eventTag : Option Event → BitVec 3
  | none => 0
  | some (.packet _ _ _) => 1
  | some (.pollingMessage _) => 2
  | some (.payloadTooLarge _ _) => 3
  | some (.wrongPayloadLength _ _) => 4
  | some (.failedChecksum _ _) => 5

/-- The channel of an event. -/
def Event.channel : Event → Channel
  | .packet _ _ _ => .data
  | .pollingMessage _ | .payloadTooLarge _ _ | .wrongPayloadLength _ _ | .failedChecksum _ _ => .diagnostics

end Sys2Proof.Machine
end

