-- ==== Sys2Proof/Tests/Slice0.lean ====
section
/-! SUPPORT. The model's own tests: the checks of WellFormed, the spec's dispatch vectors, one or two vectors of 95_test_vectors.md an
operation, and for every statement with hypotheses a concrete state that meets them.  Expected values are the spec's. -/

namespace Sys2Proof.Tests

open Sys2Proof Sys2Proof.Machine

/-! ### WellFormed (40_scanner.md R111, R115) -/

theorem test_wf_skip_refuses_sync1 : (Instr.scanSkip 0xB5).wf = false := by decide
theorem test_wf_abort_refuses_sync2 : (Instr.trlAbort 0x62).wf = false := by decide
theorem test_wf_abort_refuses_sync1 : (Instr.trlAbort 0xB5).wf = false := by decide
theorem test_wf_skip_takes_sync2 : (Instr.scanSkip 0x62).wf = true := by decide

/-! ### Decoding: words written out from 30_encoding.md R88 to R90, section 2.1 of 95_test_vectors.md -/

/-- `0 0000 1011 0101` (E1). -/
theorem test_decode_scan_sync1 : decode 0b0000010110101 = .ok .scanSync1 := by decide
/-- E2, E3. -/
theorem test_decode_scan_skip :
    decode 0b0000010110100 = .ok (.scanSkip 0xB4) ∧ decode 0b0000001100010 = .ok (.scanSkip 0x62) := by decide
/-- E4. -/
theorem test_decode_trl_sync2 : decode 0b0000101100010 = .ok .trlSync2 := by decide
/-- E5. -/
theorem test_decode_trl_repeat : decode 0b0000110110101 = .ok .trlRepeat := by decide
/-- E6, E7. -/
theorem test_decode_trl_abort :
    decode 0b0000100000000 = .ok (.trlAbort 0x00) ∧ decode 0b0000101100011 = .ok (.trlAbort 0x63) := by decide
/-- E8. -/
theorem test_decode_fld_class : decode 0b0001010110101 = .ok (.fldClass 0xB5) := by decide
/-- E9. -/
theorem test_decode_fld_id : decode 0b0001101100010 = .ok (.fldId 0x62) := by decide
/-- E10. -/
theorem test_decode_fld_lenlo : decode 0b0010011111111 = .ok (.fldLenlo 0xFF) := by decide
/-- E11; V.TOOLARGE, V.POLL, V.WRONGLEN and V.ACCEPT have this word and no other (R95). -/
theorem test_decode_fld_lenhi : decode 0b0010100000000 = .ok (.fldLenhi 0x00) := by decide
/-- E12. -/
theorem test_decode_fld_pay : decode 0b0011010110101 = .ok (.fldPay 0xB5) := by decide
/-- E13. -/
theorem test_decode_fld_cklo : decode 0b0011101100010 = .ok (.fldCklo 0x62) := by decide
/-- E14; CK.PACKET, CK.POLL, CK.MISMATCH and REINJECT have this word and no other (R95). -/
theorem test_decode_fld_ckhi : decode 0b0100000000000 = .ok (.fldCkhi 0x00) := by decide
/-- E15, E16: F alone selects FLUSH. -/
theorem test_decode_flush : decode 0b1011000000000 = .ok .flush ∧ decode 0b1000000000000 = .ok .flush := by decide
/-- 30_encoding.md R92: codes 9 and 15. -/
theorem test_decode_refuses_reserved_state :
    decode 0x0900 = .error (.reservedState 9) ∧ decode 0x0FFF = .error (.reservedState 15) := by decide
/-- The 13 bits of R89 are all there are. -/
theorem test_decode_refuses_a_fourteenth_bit : decode 0x2000 = .error .notADispatchWord := by decide
/-- The operations that no word selects have none. -/
theorem test_encode_none_of_sub_operations :
    encode .vTooLarge = none ∧ encode .vPoll = none ∧ encode (.vWrongLen 8) = none ∧ encode .vAccept = none ∧
    encode .ckPacket = none ∧ encode .ckPoll = none ∧ encode .ckMismatch = none ∧ encode .reinject = none ∧
    encode (.reset 300) = none := by decide

/-! ### Helpers -/

/-- Bytes as symbols. -/
def bytes (l : List U8) : List Symbol := l.map .byte

/-- `idle0` of 95_test_vectors.md with a maximum, a length table and the coming input. -/
def idle (maxlen : U16) (table : List (U16 × U16)) (input : List Symbol) : State :=
  { State.reset with maxlen := maxlen, config := { posW := 32, lentab := table }, inputs := input }

/-- The next state, where the outcome is one. -/
def next? : Host.Outcome State Fault Refusal → Option State
  | .next t => some t
  | .fault _ => none
  | .refused _ => none

/-- Vector A3's end: header `01 02`, lenLow `2C` taken. -/
def atLengthHigh (input : List Symbol) : State :=
  { idle 300 [] input with st := .expectLengthHigh, cls := 1, id := 2, len := 0x002C, cka := 0x2F, ckb := 0x33, pos := 5 }

/-- Vector A6's end: LEN 2, one payload byte in. -/
def atPayload (input : List Symbol) : State :=
  { idle 300 [] input with
    st := .accumulatingPayload, cls := 1, id := 2, len := 2, pwp := 1, payv := true, pay := [(0, 0xAA)], cka := 0xAF
    ckb := 0xBD, pos := 7 }

/-- `idle0` meets the invariant, whatever is coming. -/
theorem idle_invariant (maxlen : U16) (table : List (U16 × U16)) (input : List Symbol) : Invariant (idle maxlen table input) where
  payWf := ⟨List.Pairwise.nil, fun _ h => by cases h⟩
  posBound := Nat.two_pow_pos 32
  frameClear := fun _ => ⟨rfl, rfl, rfl, rfl, rfl, rfl, rfl, rfl⟩
  idNext := fun h => by cases h
  lenNext := fun h => by cases h
  lenHighNext := fun h => by cases h
  rxckNext := fun _ => rfl
  rxckHighNext := fun h => by cases h
  pwpIdle := fun _ => rfl
  pwpFilling := fun h => by cases h
  pwpDone := fun h => by cases h <;> rename_i h <;> cases h
  payvIff := rfl
  lenBound := fun h => by cases h
  sums := rfl
  replayFits := fun h => absurd rfl h

theorem idle_idle (maxlen : U16) (table : List (U16 × U16)) (input : List Symbol) : Idle (idle maxlen table input) :=
  ⟨rfl, ⟨rfl, rfl, rfl, rfl, rfl, rfl, rfl, rfl⟩, rfl⟩
theorem idle_released (maxlen : U16) (table : List (U16 × U16)) (input : List Symbol) : PinReleased (idle maxlen table input) :=
  fun _ h => by cases h

/-- The frame `01 02 02 00 AA BB` with its first checksum byte in (vectors A8, K11, K13). -/
def atChecksumHigh (first : U8) (input : List Symbol) : State :=
  { idle 300 [] input with
    st := .expectChecksumHigh, cls := 1, id := 2, len := 2, pwp := 2, payv := true, pay := [(0, 0xAA), (1, 0xBB)]
    rxck := first.setWidth 16, cka := 0x6A, ckb := 0x27, pos := 9 }

/-- The frame `0A 04 00 00` with its first checksum byte in (vectors C3, K3, K14). -/
def atPollChecksumHigh (input : List Symbol) : State :=
  { idle 300 [] input with
    st := .expectChecksumHigh, cls := 0x0A, id := 4, payv := true, rxck := 0x000E, cka := 0x0E, ckb := 0x34, pos := 7 }

/-- A header complete, the verdict to come. -/
def atVerdict (maxlen : U16) (table : List (U16 × U16)) (cls id : U8) (len : U16) : State :=
  { idle maxlen table [] with st := .expectLengthHigh, cls := cls, id := id, len := len, pos := 6 }

/-! ### One or two vectors an operation -/

/-- C2: a partial frame is dropped, POS stays. -/
theorem test_flush_drops_partial_frame :
    next? (step { idle 300 [] [.flush] with
      st := .accumulatingPayload, cls := 1, id := 2, len := 4, pwp := 2, payv := true, pay := [(0, 0xDE), (1, 0xAD)]
      cka := 0x92, ckb := 0x89, pos := 8 }) =
    some { idle 300 [] [] with pay := [(0, 0xDE), (1, 0xAD)], pos := 8 } := by decide
/-- C3: one byte short of a frame, still no event. -/
theorem test_flush_before_last_byte :
    (next? (step (atPollChecksumHigh [.flush]))).map (fun t => (t.st, t.rxck, t.event)) =
    some (.scanningForSync, 0, none) := by decide
/-- S7. -/
theorem test_scan_sync1 :
    next? (step (idle 300 [] (bytes [0xB5]))) = some { idle 300 [] [] with st := .expectSyncTrailer, pos := 1 } := by decide
/-- S1. -/
theorem test_scan_skip : next? (step (idle 300 [] (bytes [0x00]))) = some { idle 300 [] [] with pos := 1 } := by decide
/-- S2, first byte: a lone trailer starts nothing. -/
theorem test_scan_skip_lone_trailer :
    (next? (step (idle 300 [] (bytes [0x62])))).map (·.st) = some .scanningForSync := by decide
/-- S2, last byte. -/
theorem test_trl_sync2 :
    next? (step { idle 300 [] (bytes [0x62]) with st := .expectSyncTrailer, pos := 3 }) =
    some { idle 300 [] [] with st := .expectClass, pos := 4 } := by decide
/-- S3, second byte. -/
theorem test_trl_repeat :
    next? (step { idle 300 [] (bytes [0xB5]) with st := .expectSyncTrailer, pos := 1 }) =
    some { idle 300 [] [] with st := .expectSyncTrailer, pos := 2 } := by decide
/-- S4, second byte. -/
theorem test_trl_abort :
    next? (step { idle 300 [] (bytes [0x00]) with st := .expectSyncTrailer, pos := 1 }) =
    some { idle 300 [] [] with pos := 2 } := by decide
/-- A1. -/
theorem test_fld_class :
    next? (step { idle 300 [] (bytes [0x0A]) with st := .expectClass, pos := 2 }) =
    some { idle 300 [] [] with st := .expectId, cls := 0x0A, cka := 0x0A, ckb := 0x0A, pos := 3 } := by decide
/-- A2. -/
theorem test_fld_id :
    next? (step { idle 300 [] (bytes [0x04]) with st := .expectId, cls := 0x0A, cka := 0x0A, ckb := 0x0A, pos := 3 }) =
    some { idle 300 [] [] with st := .expectLengthLow, cls := 0x0A, id := 4, cka := 0x0E, ckb := 0x18, pos := 4 } := by decide
/-- A3. -/
theorem test_fld_lenlo :
    next? (step { idle 300 [] (bytes [0x2C]) with st := .expectLengthLow, cls := 1, id := 2, cka := 3, ckb := 4, pos := 4 }) =
    some (atLengthHigh []) := by decide
/-- A4: 300 is not greater than 300. -/
theorem test_fld_lenhi_accepts :
    next? (step (atLengthHigh (bytes [0x01]))) =
    some { atLengthHigh [] with
      st := .accumulatingPayload, len := 300, payv := true, cka := 0x30, ckb := 0x63, pos := 6 } := by decide
/-- V5: LEN 2 with MAXLEN 1; the low byte received first is the less significant. -/
theorem test_fld_lenhi_rejects :
    (next? (step { idle 1 [] (bytes [0x00]) with
      st := .expectLengthHigh, cls := 1, id := 1, len := 2, cka := 4, ckb := 7, pos := 5 })).map (fun t => (t.st, t.event)) =
    some (.scanningForSync, some (.payloadTooLarge ⟨1, 1, 2, none, 0⟩ 1)) := by decide
/-- A7: the last payload byte. -/
theorem test_fld_pay_last :
    next? (step (atPayload (bytes [0xBB]))) =
    some { atPayload [] with
      st := .expectChecksumLow, pwp := 2, pay := [(0, 0xAA), (1, 0xBB)], cka := 0x6A, ckb := 0x27, pos := 8 } := by decide
/-- A6: not the last one. -/
theorem test_fld_pay_first :
    (next? (step { atPayload (bytes [0xAA]) with pwp := 0, pay := [], cka := 5, ckb := 0x0E, pos := 6 })) =
    some (atPayload []) := by decide
/-- A8. -/
theorem test_fld_cklo :
    next? (step { atChecksumHigh 0 (bytes [0x6A]) with st := .expectChecksumLow, pos := 8 }) =
    some (atChecksumHigh 0x6A []) := by decide
/-- A9. -/
theorem test_fld_ckhi_packet :
    (next? (step (atChecksumHigh 0x6A (bytes [0x27])))).map (fun t => (t.st, t.pos, t.event)) =
    some (.scanningForSync, 10, some (.packet 1 2 [0xAA, 0xBB])) := by decide
/-- K13: the checksum bytes swapped. -/
theorem test_fld_ckhi_swapped :
    (next? (step (atChecksumHigh 0x27 (bytes [0x6A])))).bind (·.event) =
    some (.failedChecksum ⟨1, 2, 2, some [0xAA, 0xBB], 0x6A27⟩ 0x276A) := by decide
/-- V2. -/
theorem test_v_toolarge :
    (next? (exec .vTooLarge (atVerdict 300 [] 1 2 301))).map (fun t => (t.st, t.len, t.event)) =
    some (.scanningForSync, 0, some (.payloadTooLarge ⟨1, 2, 301, none, 0⟩ 300)) := by decide
/-- V11: too large and wrong is too large only. -/
theorem test_v_toolarge_before_wronglen :
    verdict (atVerdict 4 [(0x0201, 8)] 2 1 9) = .tooLarge := by decide
/-- V13: the table is not consulted for length 0. -/
theorem test_v_poll : verdict (atVerdict 300 [(0x0201, 8)] 2 1 0) = .poll := by decide
/-- R138's example. -/
theorem test_v_poll_next :
    next? (exec .vPoll (atVerdict 300 [] 0x0A 4 0)) =
    some { atVerdict 300 [] 0x0A 4 0 with st := .expectChecksumLow, payv := true } := by decide
/-- V8. -/
theorem test_v_wronglen :
    (next? (exec (.vWrongLen 8) (atVerdict 300 [(0x0201, 8)] 2 1 6))).map (fun t => (t.st, t.cls, t.event)) =
    some (.scanningForSync, 0, some (.wrongPayloadLength ⟨2, 1, 6, none, 0⟩ 8)) := by decide
/-- V14, V15: an entry of 0, and an entry above MAXLEN. -/
theorem test_v_wronglen_entries :
    verdict (atVerdict 300 [(0x0707, 0)] 7 7 3) = .wrongLen 0 ∧
    verdict (atVerdict 4 [(0x0201, 8)] 2 1 3) = .wrongLen 8 := by decide
/-- V1, V3, V4, V9: the accepting boundary. -/
theorem test_v_accept :
    verdict (atVerdict 300 [] 1 2 300) = .accept ∧ verdict (atVerdict 0 [] 1 2 65535) = .accept ∧
    verdict (atVerdict 65535 [] 1 2 65535) = .accept ∧ verdict (atVerdict 300 [(0x0201, 8)] 2 1 8) = .accept := by decide
/-- R140's example. -/
theorem test_v_accept_next :
    next? (exec .vAccept (atVerdict 300 [] 1 2 2)) =
    some { atVerdict 300 [] 1 2 2 with st := .accumulatingPayload, payv := true } := by decide
/-- R155's example. -/
theorem test_ck_packet :
    next? (exec .ckPacket { atChecksumHigh 0 [] with rxck := 0x276A }) =
    some { idle 300 [] [] with
      event := some (.packet 1 2 [0xAA, 0xBB]), pay := [(0, 0xAA), (1, 0xBB)], pos := 9 } := by decide
/-- K3. -/
theorem test_ck_poll :
    (next? (exec .ckPoll { atPollChecksumHigh [] with rxck := 0x340E })).map (fun t => (t.st, t.event)) =
    some (.scanningForSync, some (.pollingMessage ⟨0x0A, 4, 0, some [], 0x340E⟩)) := by decide
/-- R1: the body goes to REPLAY, POS from 10 to 2 (in the step; here from 9 to 1, the last byte not counted). -/
theorem test_ck_mismatch :
    next? (exec .ckMismatch { atChecksumHigh 0 [] with rxck := 0x276B }) =
    some { idle 300 [] [] with
      event := some (.failedChecksum ⟨1, 2, 2, some [0xAA, 0xBB], 0x276B⟩ 0x276A)
      replay := [0x01, 0x02, 0x02, 0x00, 0xAA, 0xBB, 0x6B, 0x27], pay := [(0, 0xAA), (1, 0xBB)], pos := 1 } := by decide
/-- K14: length 0 with a bad checksum is no polling message. -/
theorem test_ck_mismatch_of_poll :
    (next? (step (atPollChecksumHigh (bytes [0x35])))).bind (·.event) =
    some (.failedChecksum ⟨0x0A, 4, 0, some [], 0x350E⟩ 0x340E) := by decide
/-- R166's example, what was in REPLAY staying behind. -/
theorem test_reinject :
    (next? (exec .reinject { idle 300 [] [] with
      cls := 1, id := 2, len := 8, rxck := 0x62B5, pos := 16, replay := [0x77]
      pay := [(0, 0xB5), (1, 0x62), (2, 0x0A), (3, 0x04), (6, 0x0E), (7, 0x34)] })).map (fun t => (t.pos, t.replay)) =
    some (2, [0x01, 0x02, 0x08, 0x00, 0xB5, 0x62, 0x0A, 0x04, 0x00, 0x00, 0x0E, 0x34, 0xB5, 0x62, 0x77]) := by decide
/-- U11: a rewind below 0 wraps modulo 2^POS_W. -/
theorem test_reinject_wraps_pos :
    (next? (exec .reinject { State.reset with pos := 2 })).map (·.pos) = some 4294967292 := by decide
/-- C5: from the middle of a frame, the pin winning over a pending byte. -/
theorem test_reset_wins :
    next? (step { atPayload (bytes [0xBB]) with resetPin := [some 4] }) =
    some { idle 4 [] (bytes [0xBB]) with pay := [(0, 0xAA)] } := by decide
/-- C6: a pending replay is lost. -/
theorem test_reset_empties_replay :
    (next? (exec (.reset 300) { idle 4 [] [] with replay := [1, 2], pos := 2 })).map (fun t => (t.replay, t.pos, t.maxlen)) =
    some ([], 0, 300) := by decide

/-! ### The step, the checksum, the buffer, the event port -/

/-- 20_memory.md R68: a byte of REPLAY is taken before IN. -/
theorem test_step_takes_replay_first :
    (next? (step { idle 300 [] (bytes [0x00]) with replay := [0xB5] })).map (fun t => (t.st, t.replay, t.inputs)) =
    some (.expectSyncTrailer, [], bytes [0x00]) := by decide
/-- 43_checksum.md R160, the second and the fourth row. -/
theorem test_ck_wraps :
    ck [0x01, 0x02, 0x02, 0x00, 0xAA, 0xBB] = (0x6A, 0x27) ∧ ck [0xFF, 0xFF, 0x01, 0x00, 0xFF] = (0xFE, 0xF9) := by decide
/-- 43_checksum.md R160, the first row. -/
theorem test_fletcher16 : fletcher16 [0x0A, 0x04, 0x00, 0x00] = 0x340E := by decide
/-- 30_encoding.md R97's example. -/
theorem test_good_frame : goodFrame 1 2 [0xAA, 0xBB] = [0xB5, 0x62, 0x01, 0x02, 0x02, 0x00, 0xAA, 0xBB, 0x6A, 0x27] := by
  decide
/-- Writing the value an unlisted index reads as removes the entry. -/
theorem test_memory_is_canonical : Memory.write [(0, 1), (3, 2)] 3 payBlank = [(0, 1)] := by decide
/-- 60_exceptions.md R190: tags and channels. -/
theorem test_event_port :
    eventTag none = 0 ∧ eventTag (some (.packet 1 2 [])) = 1 ∧ (Event.packet 1 2 []).channel = .data ∧
    (Event.failedChecksum ⟨1, 2, 0, some [], 0⟩ 1).channel = .diagnostics := by decide
/-- 20_memory.md R52: PAY has no index 65535, so nothing is stored there; the last index it has is 65534. -/
theorem test_store_at_the_end_of_pay :
    Memory.store [(3, 2)] 65535 7 = [(3, 2)] ∧ Memory.store [(3, 2)] 65534 7 = [(3, 2), (65534, 7)] := by decide

/-- What the host asks: a row's word placed at reset is the next step's operation. -/
theorem test_placed_word_runs :
    (next? (step (State.reset.withFetchWord 16 0x02B5))).map (fun t => (t.st, t.cls)) = some (.expectId, 0xB5) ∧
    (next? (step (State.reset.withFetchWord 16 0x0500))).map (·.st) = some .expectChecksumLow ∧
    (next? (step (State.reset.withFetchWord 16 0x1000))).map (·.st) = some .scanningForSync := by decide

/-! ### The hypotheses of the statements can be met -/

/-- DecodeOfEncodeIsTheInstruction. -/
theorem test_met_encode :
    (Instr.trlAbort 0x63).wf = true ∧ encode (.trlAbort 0x63) = some 0x0163 ∧
    (Instr.fldPay 0xFF).wf = true ∧ encode (.fldPay 0xFF) = some 0x06FF := by decide
/-- DecodedInstructionHasTheWord, F = 0 and F = 1. -/
theorem test_met_decoded :
    decode 0x08FF = .ok (.fldCkhi 0xFF) ∧ flushField (BitVec.ofNat 13 0x08FF) = false ∧
    decode 0x1FFF = .ok .flush ∧ flushField (BitVec.ofNat 13 0x1FFF) = true := by decide
/-- EverySymbolSelectsExactlyOneRow, its third clause at the first of its STATEs. -/
theorem test_met_row_by_state :
    2 ≤ (DecState.code .expectClass).toNat ∧
    decodeWord (dispatchWord (.byte 0xB5) .expectClass) = .ok (.fldClass 0xB5) ∧
    decodeWord (dispatchWord (.byte 0x62) .expectClass) = .ok (.fldClass 0x62) := by decide
/-- ReservedStateCodesSelectNothing, both ends of the range. -/
theorem test_met_reserved : 9 ≤ (9 : BitVec 4).toNat ∧ 9 ≤ (15 : BitVec 4).toNat := by decide
/-- StepRunsTheDecodedInstruction, from REPLAY, from IN, and `Flush`. -/
theorem test_met_step_runs :
    pinNow { idle 300 [] [.flush] with replay := [0xB5] } = none ∧
    decodeWord (dispatchWord (.byte 0xB5) .scanningForSync) = .ok .scanSync1 ∧
    pinNow (idle 300 [] (bytes [0xB5])) = none ∧ (idle 300 [] (bytes [0xB5])).replay = [] ∧
    (idle 300 [] [.flush]).inputs = [.flush] ∧ decodeWord (dispatchWord .flush .scanningForSync) = .ok .flush := by decide
/-- StepHoldsTheStateWithoutSymbol. -/
theorem test_met_hold : pinNow State.reset = none ∧ State.reset.replay = [] ∧ State.reset.inputs = [] := by decide
/-- ResetPinWinsOverEverySymbol. -/
theorem test_met_pin : pinNow { idle 300 [] (bytes [0xB5]) with resetPin := [some 4] } = some 4 := by decide
/-- ReplayStallsTheInput. -/
theorem test_met_replay_stalls : ∃ t, ({ idle 300 [] [.flush] with replay := [1] } : State).replay ≠ [] ∧
    step { idle 300 [] [.flush] with replay := [1] } = .next t := ⟨_, by decide, rfl⟩
/-- PlacedWordRunsNext. -/
theorem test_met_placed : decode 0x06B5 = .ok (.fldPay 0xB5) := by decide
/-- OtherBytesAreDiscarded, next to the bytes it leaves out. -/
theorem test_met_other_bytes :
    (0xB4 : U8) ≠ 0xB5 ∧ (0x62 : U8) ≠ 0xB5 ∧ (0x63 : U8) ≠ 0x62 ∧ (0x63 : U8) ≠ 0xB5 := by decide
/-- LengthHighRunsTheFirstVerdict, its four clauses at the boundary: 301 over 300, length 0, an entry of 8 against 300, an entry equal to
the length. -/
theorem test_met_length_high :
    let w := fun (m : U16) (tab : List (U16 × U16)) (v : U8) (s : State) =>
      { s with maxlen := m, config := { posW := 32, lentab := tab }, len := v ++ s.len.extractLsb' 0 8
               cka := s.cka + v, ckb := s.ckb + (s.cka + v) }
    let big : State := w 300 [] 1 { atLengthHigh [] with len := 0x2D }
    let zero : State := w 300 [] 0 { atLengthHigh [] with len := 0 }
    let wrong : State := w 300 [(0x0102, 8)] 1 (atLengthHigh [])
    let good : State := w 300 [(0x0102, 300)] 1 (atLengthHigh [])
    (big.maxlen ≠ 0 ∧ big.maxlen.toNat < big.len.toNat) ∧
    (¬(zero.maxlen ≠ 0 ∧ zero.maxlen.toNat < zero.len.toNat) ∧ zero.len = 0) ∧
    (¬(wrong.maxlen ≠ 0 ∧ wrong.maxlen.toNat < wrong.len.toNat) ∧ wrong.len ≠ 0 ∧
      lookup wrong.config wrong.cls wrong.id = some 8 ∧ wrong.len ≠ 8) ∧
    (¬(good.maxlen ≠ 0 ∧ good.maxlen.toNat < good.len.toNat) ∧ good.len ≠ 0 ∧
      lookup good.config good.cls good.id = some good.len) := by decide
/-- PayloadByteIsStoredAtWritePosition, at the first and at the last index PAY has. -/
theorem test_met_payload :
    Memory.wf (atPayload []).pay ∧ (0 : U16).toNat < (1 : U16).toNat ∧ (65534 : U16).toNat < (65535 : U16).toNat := by decide
/-- PayloadByteCompletesAtEveryWritePosition, with bytes listed at both ends of PAY. -/
theorem test_met_every_position : Memory.wf [(0, 0xAA), (65534, 0xBB)] := by decide
/-- StepIsTotalAndPacketsHaveDeclaredLength, its last clause (vector A9; the invariant: `test_met_invariant_at_emits`). -/
theorem test_met_packet :
    ∃ t, step (atChecksumHigh 0x6A (bytes [0x27])) = .next t ∧ t.event = some (.packet 1 2 [0xAA, 0xBB]) := ⟨_, rfl, by decide⟩
/-- ChecksumHighRunsTheOutcome, its three clauses. -/
theorem test_met_checksum_high :
    let w := fun (v : U8) (s : State) => { s with rxck := v ++ s.rxck.extractLsb' 0 8 }
    let good : State := w 0x27 (atChecksumHigh 0x6A [])
    let poll : State := w 0x34 (atPollChecksumHigh [])
    let bad : State := w 0x26 (atChecksumHigh 0x6A [])
    (good.ckb ++ good.cka = good.rxck ∧ good.len ≠ 0) ∧ (poll.ckb ++ poll.cka = poll.rxck ∧ poll.len = 0) ∧
    bad.ckb ++ bad.cka ≠ bad.rxck := by decide
/-- MismatchReportsAndReinjects, its last clause. -/
theorem test_met_mismatch : (atChecksumHigh 0 []).payv = true ∧ (atChecksumHigh 0 []).pwp = (atChecksumHigh 0 []).len := by
  decide

/-- The five steps that emit, for OnlyLengthHighAndChecksumHighEmit, EveryReturnToScanningClearsTheFrame and EventsRecordTheFrame. -/
theorem test_met_emits :
    (∃ t f m, step (atLengthHigh (bytes [0x02])) = .next t ∧ t.event = some (.payloadTooLarge f m)) ∧
    (∃ t f e, step { atLengthHigh (bytes [0x01]) with config := { posW := 32, lentab := [(0x0102, 8)] } } = .next t ∧
      t.event = some (.wrongPayloadLength f e)) ∧
    (∃ t c i p, step (atChecksumHigh 0x6A (bytes [0x27])) = .next t ∧ t.event = some (.packet c i p)) ∧
    (∃ t f, step (atPollChecksumHigh (bytes [0x34])) = .next t ∧ t.event = some (.pollingMessage f)) ∧
    (∃ t f c, step (atChecksumHigh 0x6B (bytes [0x27])) = .next t ∧ t.event = some (.failedChecksum f c)) :=
  ⟨⟨_, _, _, rfl, rfl⟩, ⟨_, _, _, rfl, rfl⟩, ⟨_, _, _, _, rfl, rfl⟩, ⟨_, _, rfl, rfl⟩, ⟨_, _, _, rfl, rfl⟩⟩

/-- The states of `test_met_emits` meet the invariant (EventsRecordTheFrame). -/
theorem test_met_invariant_at_emits :
    Invariant (atLengthHigh (bytes [0x02])) ∧
    Invariant { atLengthHigh (bytes [0x01]) with config := { posW := 32, lentab := [(0x0102, 8)] } } ∧
    Invariant (atChecksumHigh 0x6A (bytes [0x27])) ∧ Invariant (atPollChecksumHigh (bytes [0x34])) ∧
    Invariant (atChecksumHigh 0x6B (bytes [0x27])) := by
  refine ⟨?_, ?_, ?_, ?_, ?_⟩ <;> constructor <;> decide
/-- So do one that is filling the payload and one that is scanning a replay (StepKeepsTheInvariant,
LeftoverPayloadBytesAreUnobservable). -/
theorem test_met_invariant_at_payload : Invariant (atPayload (bytes [0xBB])) := by constructor <;> decide
theorem test_met_invariant_at_replay : Invariant { idle 300 [] (bytes [0]) with replay := [0x01, 0x35] } := by
  constructor <;> decide

/-- OnlyLengthHighAndChecksumHighEmit, its second clause, from REPLAY and from IN. -/
theorem test_met_always_emits :
    (∃ t, step { atChecksumHigh 0x6A [] with replay := [0x00] } = .next t) ∧
    (atChecksumHigh 0x6A (bytes [0x00])).replay = [] ∧ pinNow (atChecksumHigh 0x6A (bytes [0x00])) = none ∧
    ∃ t, step (atChecksumHigh 0x6A (bytes [0x00])) = .next t := ⟨⟨_, rfl⟩, rfl, rfl, ⟨_, rfl⟩⟩
/-- EveryReturnToScanningClearsTheFrame, its second clause. -/
theorem test_met_return : ∃ t, step (atPayload [.flush]) = .next t ∧ (atPayload [.flush]).st ≠ .scanningForSync ∧
    t.st = .scanningForSync := ⟨_, rfl, by decide, rfl⟩
/-- OnlyMismatchRewinds, with something in REPLAY. -/
theorem test_met_no_rewind : ∃ t, exec (.trlAbort 0) { idle 300 [] [] with replay := [1] } = .next t := ⟨_, rfl⟩
/-- MaxlenChangesOnlyByReset, both pins. -/
theorem test_met_maxlen :
    (∃ t, step State.reset = .next t ∧ pinNow State.reset = none) ∧
    ∃ t, step { State.reset with resetPin := [some 4] } = .next t ∧ pinNow { State.reset with resetPin := [some 4] } ≠ none :=
  ⟨⟨_, rfl, rfl⟩, ⟨_, rfl, by decide⟩⟩
/-- WiringNeverChanges. -/
theorem test_met_wiring :
    (∃ t, exec .vAccept (atVerdict 300 [(0x0201, 8)] 2 1 8) = .next t) ∧
    ∃ t, Host.Core.run core 1 (idle 300 [(0x0201, 8)] (bytes [0xB5])) = .next t := ⟨⟨_, rfl⟩, ⟨_, rfl⟩⟩
/-- PayloadBufferWrittenOnlyAtWritePosition. -/
theorem test_met_payload_written : ∃ t, step (atPayload (bytes [0xBB])) = .next t ∧
    Memory.read t.pay 1 ≠ Memory.read (atPayload (bytes [0xBB])).pay 1 := ⟨_, rfl, by decide⟩
/-- PositionWithReplayCountsTheInput, from IN and from REPLAY. -/
theorem test_met_position :
    (pinNow (idle 300 [] (bytes [1])) = none ∧ ∃ t, step (idle 300 [] (bytes [1])) = .next t) ∧
    ∃ t, step { idle 300 [] (bytes [1]) with replay := [2] } = .next t := ⟨⟨rfl, _, rfl⟩, ⟨_, rfl⟩⟩
/-- TwoByteFieldsAreLittleEndian. -/
theorem test_met_two_bytes :
    (∃ t, exec (.fldLenlo 0x2C) State.reset = .next t) ∧ ∃ t, exec (.fldCklo 0x0E) State.reset = .next t :=
  ⟨⟨_, rfl⟩, ⟨_, rfl⟩⟩
/-- ReleaseMeetsTheInvariant, with a buffer an earlier frame has left. -/
theorem test_met_release : Memory.wf [(0, 0xAA), (65534, 0xBB)] := by decide
/-- StepKeepsTheInvariant, on a step that stores a payload byte (its invariant: `test_met_invariant_at_payload`). -/
theorem test_met_step : ∃ t, step (atPayload (bytes [0xBB])) = .next t := ⟨_, rfl⟩

/-- A host that sends the header of a two-byte frame. -/
def sending (xs : List U8) : State := State.started { posW := 32, lentab := [] } 300 [(9, 9)] (bytes xs) []

/-- The state some steps on, itself where a step stops. -/
def stateAfter (k : Nat) (s : State) : State := (next? (Host.Core.run core k s)).getD s

/-- What such a host's steps lead to is reachable. -/
theorem reachable_sending {k : Nat} {xs : List U8} {s : State} (h : Host.Core.run core k (sending xs) = .next s) : Reachable s :=
  ⟨{ posW := 32, lentab := [] }, 300, [(9, 9)], bytes xs, [], k, by decide, h⟩

/-- The Reachable statements: reachable states while idle, filling the payload, and before the last checksum byte. -/
theorem test_met_reachable :
    (∃ s, Reachable s ∧ s.st = .scanningForSync) ∧ (∃ s, Reachable s ∧ s.st = .accumulatingPayload) ∧
    (∃ s, Reachable s ∧ s.st = .expectChecksumHigh) :=
  ⟨⟨sending [], reachable_sending (k := 0) rfl, rfl⟩,
   ⟨stateAfter 6 (sending [0xB5, 0x62, 1, 2, 2, 0]), reachable_sending (k := 6) (xs := [0xB5, 0x62, 1, 2, 2, 0]) rfl, by decide⟩,
   ⟨stateAfter 7 (sending [0xB5, 0x62, 0x0A, 4, 0, 0, 0x0E]), reachable_sending (k := 7) (xs := [0xB5, 0x62, 0x0A, 4, 0, 0, 0x0E]) rfl, by decide⟩⟩
/-- ReachableReplayFitsItsCapacity where REPLAY holds a body (vector K14). -/
theorem test_met_reachable_replay : ∃ s, Reachable s ∧ s.replay ≠ [] :=
  ⟨stateAfter 8 (sending [0xB5, 0x62, 0x0A, 4, 0, 0, 0x0E, 0x35]), reachable_sending (k := 8) (xs := [0xB5, 0x62, 0x0A, 4, 0, 0, 0x0E, 0x35]) rfl, by decide⟩
/-- ReachableStepsNeverStop where a packet is emitted next (vector A10). -/
theorem test_met_reachable_packet :
    ∃ s, Reachable s ∧ (next? (step s)).bind (·.event) = some (.packet 0xFF 0xFF [0xFF]) :=
  ⟨stateAfter 8 (sending [0xB5, 0x62, 0xFF, 0xFF, 1, 0, 0xFF, 0xFE, 0xF9]), reachable_sending (k := 8) (xs := [0xB5, 0x62, 0xFF, 0xFF, 1, 0, 0xFF, 0xFE, 0xF9]) rfl, by decide⟩

/-- RecoveryRestoresTheStream: vector R2 from its class byte, six steps to the failure. -/
theorem test_met_recovery :
    let s : State := { idle 300 [] (bytes [0x0A, 4, 0, 0, 0x0E, 0x35, 0]) with st := .expectClass, pos := 2 }
    Invariant s ∧ PinReleased s ∧ s.st = .expectClass ∧ s.event = none ∧
    (∀ j u, 0 < j → j < 6 → Host.Core.run core j s = .next u → u.st.inBody = true) ∧
    ∃ t, Host.Core.run core 6 s = .next t ∧ ∃ f c, t.event = some (.failedChecksum f c) := by
  refine ⟨?_, idle_released 300 [] [], rfl, rfl, ?_, ⟨_, rfl, _, _, rfl⟩⟩
  · constructor <;> decide
  · intro j u h0 h6 hr
    match j, h0, h6 with
    | 1, _, _ => cases hr; rfl
    | 2, _, _ => cases hr; rfl
    | 3, _, _ => cases hr; rfl
    | 4, _, _ => cases hr; rfl
    | 5, _, _ => cases hr; rfl
/-- RescanningComesToRest: vector R2's stream. -/
theorem test_met_rest :
    let s := idle 300 [] (bytes [0xB5, 0x62, 0x0A, 4, 0, 0, 0x0E, 0x35, 0])
    Invariant s ∧ PinReleased s ∧ s.st = .scanningForSync ∧ s.replay = [] ∧ ∃ t, runEvents 0 s = some (t, []) :=
  ⟨idle_invariant _ _ _, idle_released _ _ _, rfl, rfl, _, rfl⟩
/-- ChunkingDoesNotMatter: one byte, then one more. -/
theorem test_met_chunks :
    ∃ t u, runEvents 1 { idle 300 [] [] with inputs := bytes [0xB5] } = some (t, []) ∧
      (∀ j r ds, j < 1 → runEvents j { idle 300 [] [] with inputs := bytes [0xB5] } = some (r, ds) → quiet r = false) ∧
      quiet t = true ∧ runEvents 1 { t with inputs := bytes [0x62] } = some (u, []) := by
  refine ⟨_, _, rfl, ?_, rfl, rfl⟩
  intro j r ds h1 hr
  match j, h1 with
  | 0, _ => cases hr; rfl
/-- LeftoverPayloadBytesAreUnobservable: two buffers that differ beyond PWP. -/
theorem test_met_leftover :
    let s := atPayload (bytes [0xBB])
    let p : Memory := [(0, 0xAA), (1, 0x55), (7, 0x66)]
    Invariant s ∧ Memory.wf p ∧ p ≠ s.pay ∧ (∀ a, s.payv = true → a < s.pwp.toNat → Memory.read p a = Memory.read s.pay a) ∧
    ∃ t, step s = .next t := by
  refine ⟨test_met_invariant_at_payload, by decide, by decide, ?_, _, rfl⟩
  intro a _ ha
  have h0 : a = 0 := Nat.lt_one_iff.mp ha
  subst h0; rfl
/-- ReplayBufferIsRewoundInput. -/
theorem test_met_rewound :
    pinNow { idle 300 [] (bytes [0x62]) with replay := [0xB5] } = none ∧
    ∃ t, step { idle 300 [] (bytes [0x62]) with replay := [0xB5] } = .next t := ⟨rfl, _, rfl⟩

/-- An acceptable payload without a table. -/
theorem acceptable_bare (xs : List Symbol) (c i : U8) (p : List U8) (n : U16) (h : p.length = n.toNat) (hn : n.toNat ≤ 300) :
    Acceptable (idle 300 [] xs) c i n p := ⟨h, hn, fun _ e he => by cases he⟩

/-- GoodFrameGivesItsPacket: vector A10's frame, then a byte of the next one. -/
theorem test_met_good_frame :
    let s := idle 300 [] (bytes [0xB5, 0x62, 0xFF, 0xFF, 0x01, 0x00, 0xFF, 0xFE, 0xF9, 0xB5])
    Invariant s ∧ Idle s ∧ PinReleased s ∧ ([0xFF] : List U8) ≠ [] ∧ Acceptable s 0xFF 0xFF (BitVec.ofNat 16 1) [0xFF] ∧
    s.inputs = (goodFrame 0xFF 0xFF [0xFF]).map Symbol.byte ++ bytes [0xB5] :=
  ⟨idle_invariant _ _ _, idle_idle _ _ _, idle_released _ _ _, by decide, acceptable_bare _ _ _ _ _ rfl (by decide), by decide⟩
/-- EmptyFrameGivesPollingMessage: vector V13, with its table entry. -/
theorem test_met_empty_frame :
    let s := idle 300 [(0x0201, 8)] (bytes [0xB5, 0x62, 0x02, 0x01, 0x00, 0x00, 0x03, 0x0B])
    Invariant s ∧ Idle s ∧ PinReleased s ∧ s.inputs = (goodFrame 2 1 []).map Symbol.byte ++ [] :=
  ⟨idle_invariant _ _ _, idle_idle _ _ _, idle_released _ _ _, by decide⟩
/-- RejectedHeaderIsReportedOnce: vectors V7 and V8. -/
theorem test_met_rejected :
    (let s := idle 4 [] (bytes [0xB5, 0x62, 1, 7, 5, 0])
     Invariant s ∧ Idle s ∧ PinReleased s ∧ s.inputs = [0xB5, 0x62, 1, 7, lo 5, hi 5].map Symbol.byte ++ [] ∧
     lmax s.maxlen < (5 : U16).toNat) ∧
    (let s := idle 300 [(0x0201, 8)] (bytes [0xB5, 0x62, 2, 1, 6, 0])
     Invariant s ∧ Idle s ∧ PinReleased s ∧ s.inputs = [0xB5, 0x62, 2, 1, lo 6, hi 6].map Symbol.byte ++ [] ∧
     (6 : U16).toNat ≤ lmax s.maxlen ∧ (6 : U16) ≠ 0 ∧ lookup s.config 2 1 = some 8 ∧ (8 : U16) ≠ 6) :=
  ⟨⟨idle_invariant _ _ _, idle_idle _ _ _, idle_released _ _ _, by decide, by decide⟩,
   ⟨idle_invariant _ _ _, idle_idle _ _ _, idle_released _ _ _, by decide, by decide, by decide, by decide, by decide⟩⟩
/-- BadFrameIsReportedAndRewound: vector R1. -/
theorem test_met_bad_frame :
    let s := idle 300 [] (bytes [0xB5, 0x62, 1, 2, 2, 0, 0xAA, 0xBB, 0x6B, 0x27])
    Invariant s ∧ Idle s ∧ PinReleased s ∧ Acceptable s 1 2 2 [0xAA, 0xBB] ∧
    ck (coveredBytes 1 2 2 [0xAA, 0xBB]) ≠ (0x6B, 0x27) ∧
    s.inputs = (wireFrame 1 2 2 [0xAA, 0xBB] 0x6B 0x27).map Symbol.byte ++ [] :=
  ⟨idle_invariant _ _ _, idle_idle _ _ _, idle_released _ _ _, acceptable_bare _ _ _ _ _ rfl (by decide), by decide, by decide⟩
/-- EmbeddedFrameIsRecovered: program P4 of 95_test_vectors.md. -/
theorem test_met_embedded :
    let s := idle 300 [] (bytes [0xB5, 0x62, 0x01, 0x02, 0x0D, 0x00, 0x00, 0xB5, 0x62, 0x06, 0x01, 0x03, 0x00, 0x01, 0x02, 0x03,
      0x10, 0x49, 0x00, 0x6F, 0xE1])
    Invariant s ∧ Idle s ∧ PinReleased s ∧ ([1, 2, 3] : List U8) ≠ [] ∧ Acceptable s 6 1 (BitVec.ofNat 16 3) [1, 2, 3] ∧
    Acceptable s 1 2 13 ([0] ++ goodFrame 6 1 [1, 2, 3] ++ [0]) ∧
    ck (coveredBytes 1 2 13 ([0] ++ goodFrame 6 1 [1, 2, 3] ++ [0])) ≠ (0x6F, 0xE1) ∧
    (∀ v ∈ [1, 2, lo 13, hi 13] ++ [0], v ≠ 0xB5) ∧
    s.inputs = (wireFrame 1 2 13 ([0] ++ goodFrame 6 1 [1, 2, 3] ++ [0]) 0x6F 0xE1).map Symbol.byte ++ [] :=
  ⟨idle_invariant _ _ _, idle_idle _ _ _, idle_released _ _ _, by decide, acceptable_bare _ _ _ _ _ rfl (by decide),
   acceptable_bare _ _ _ _ _ rfl (by decide), by decide, by decide, by decide⟩
/-- TruncatedFrameEmitsNothing: cut before its first byte and before its last. -/
theorem test_met_truncated :
    (let s := idle 300 [] [.flush]
     Invariant s ∧ Idle s ∧ PinReleased s ∧ Acceptable s 1 2 2 [0xAA, 0xBB] ∧ 0 < [(0xAA : U8), 0xBB].length + 8 ∧
     s.inputs = ((wireFrame 1 2 2 [0xAA, 0xBB] 0x6A 0x27).take 0).map Symbol.byte ++ .flush :: []) ∧
    (let s := idle 300 [] (bytes [0xB5, 0x62, 1, 2, 2, 0, 0xAA, 0xBB, 0x6A] ++ [.flush])
     Invariant s ∧ Idle s ∧ PinReleased s ∧ Acceptable s 1 2 2 [0xAA, 0xBB] ∧ 9 < [(0xAA : U8), 0xBB].length + 8 ∧
     s.inputs = ((wireFrame 1 2 2 [0xAA, 0xBB] 0x6A 0x27).take 9).map Symbol.byte ++ .flush :: []) :=
  ⟨⟨idle_invariant _ _ _, idle_idle _ _ _, idle_released _ _ _, acceptable_bare _ _ _ _ _ rfl (by decide), by decide, by decide⟩,
   ⟨idle_invariant _ _ _, idle_idle _ _ _, idle_released _ _ _, acceptable_bare _ _ _ _ _ rfl (by decide), by decide, by decide⟩⟩

end Sys2Proof.Tests
end

section
/-! Two-byte fields (30_encoding.md R83, R84): what `combine` is as a word and as a number, and which half of its register each
low-byte operation writes. -/

namespace Sys2Proof.Machine

open Sys2Proof

/-- R83's formula: the high byte shifted up, or the low byte. -/
theorem combine_eq_or (a b : U8) : combine a b = a.setWidth 16 ||| (b.setWidth 16 <<< 8) := by
  calc combine a b = (combine a b).setWidth 16 := (BitVec.setWidth_eq _).symm
    _ = b.setWidth 16 <<< 8 ||| a.setWidth 16 := BitVec.setWidth_append_eq_shiftLeft_setWidth_or
    _ = a.setWidth 16 ||| b.setWidth 16 <<< 8 := BitVec.or_comm _ _

theorem toNat_combine (a b : U8) : (combine a b).toNat = a.toNat + 256 * b.toNat := by
  calc (combine a b).toNat = b.toNat <<< 8 ||| a.toNat := BitVec.toNat_append b a
    _ = b.toNat <<< 8 + a.toNat := (Nat.shiftLeft_add_eq_or_of_lt a.isLt _).symm
    _ = a.toNat + 256 * b.toNat := by rw [Nat.shiftLeft_eq]; omega

/-- Low half, then high half: nothing of the register's old value is left. -/
@[simp] theorem setHi_setLo (x : U16) (a b : U8) : setHi (setLo x a) b = combine a b := by
  rw [setHi, lo_setLo]

theorem exec_fldLenlo_len {a : U8} {s t : State} (h : exec (.fldLenlo a) s = .next t) : t.len = setLo s.len a := by
  cases h
  rfl

theorem exec_fldCklo_rxck {a : U8} {s t : State} (h : exec (.fldCklo a) s = .next t) : t.rxck = setLo s.rxck a := by
  cases h
  rfl

/-- Settles O33: each low-byte operation leaves its byte in the low half, so the high-half store completes `combine`. -/
theorem twoByteFieldsAreLittleEndian : Obligations.TwoByteFieldsAreLittleEndian := by
  intro a b
  refine ⟨combine_eq_or a b, toNat_combine a b, fun s t h => ?len, fun s t h => ?rxck⟩
  case len => rw [exec_fldLenlo_len h, setHi_setLo]
  case rxck => rw [exec_fldCklo_rxck h, setHi_setLo]

end Sys2Proof.Machine
end

section
/-! The sync bytes (40_scanner.md R112 to R114): the operation each selects, and the whole next state of that operation. -/

namespace Sys2Proof.Machine

open Sys2Proof

theorem operationOf_scanning_sync1 : operationOf (.byte 0xB5) .scanningForSync = .scanSync1 := by
  simp only [operationOf, if_true]

theorem operationOf_trailer_sync2 : operationOf (.byte 0x62) .expectSyncTrailer = .trlSync2 := by
  simp only [operationOf, if_true]

/-- A second sync byte is not the trailer, so R90's row 5 is the one that takes it. -/
theorem operationOf_trailer_sync1 : operationOf (.byte 0xB5) .expectSyncTrailer = .trlRepeat := by
  have not_trailer : (0xB5 : U8) ≠ 0x62 := by decide
  simp only [operationOf, if_neg not_trailer, if_true]

@[simp] theorem exec_scanSync1 (s : State) : exec .scanSync1 s = .next { s with st := .expectSyncTrailer } := rfl

@[simp] theorem exec_trlSync2 (s : State) : exec .trlSync2 s = .next { s with st := .expectClass } := rfl

@[simp] theorem exec_trlRepeat (s : State) : exec .trlRepeat s = .next { s with st := .expectSyncTrailer } := rfl

/-- Settles O11: the decoder selects `operationOf` of the byte and STATE, and each operation selected here writes STATE alone. -/
theorem syncBytesMoveTheScanner : Obligations.SyncBytesMoveTheScanner := by
  refine ⟨?sync1, exec_scanSync1, ?sync2, exec_trlSync2, ?again, exec_trlRepeat⟩
  case sync1 => rw [decodeWord_dispatchWord, operationOf_scanning_sync1]
  case sync2 => rw [decodeWord_dispatchWord, operationOf_trailer_sync2]
  case again => rw [decodeWord_dispatchWord, operationOf_trailer_sync1]

end Sys2Proof.Machine
end

section
/-! FLD.LENHI and the verdict (41_field_assembler.md R123, 42_validator.md R136): the sub-operation of each verdict, the condition of each
verdict, and what each sub-operation does. -/

namespace Sys2Proof.Machine

/-- The sub-operation a verdict is carried out by. -/
def Verdict.operation : Verdict → Instr
  | .tooLarge => .vTooLarge
  | .poll => .vPoll
  | .wrongLen e => .vWrongLen e
  | .accept => .vAccept

/-- FLD.LENHI is the verdict's sub-operation on the state with LEN complete. -/
theorem exec_fldLenhi {v : U8} {s w : State} (hw : w = acc v { s with len := setHi s.len v }) :
    exec (.fldLenhi v) s = exec (verdict w).operation w := by
  subst hw
  simp only [exec, execFldLenhi]
  cases verdict (acc v { s with len := setHi s.len v }) <;> rfl

theorem verdict_eq_tooLarge {w : State} (large : w.maxlen ≠ 0 ∧ w.maxlen.toNat < w.len.toNat) : verdict w = .tooLarge :=
  if_pos ((tooLarge_iff w).mpr large)

theorem verdict_eq_poll {w : State} (fits : ¬(w.maxlen ≠ 0 ∧ w.maxlen.toNat < w.len.toNat)) (zero : w.len = 0) :
    verdict w = .poll := by
  rw [verdict, if_neg (mt (tooLarge_iff w).mp fits), if_pos ((isPoll_iff w).mpr zero)]

theorem wrongLen_eq_none {w : State}
    (agrees : lookup w.config w.cls w.id = none ∨ lookup w.config w.cls w.id = some w.len) : wrongLen w = none := by
  rcases agrees with h | h <;> simp [wrongLen, h]

/-- Past the first two conditions, the length table decides. -/
theorem verdict_eq_wrongLen {w : State} {e : U16} (fits : ¬(w.maxlen ≠ 0 ∧ w.maxlen.toNat < w.len.toNat))
    (nonzero : w.len ≠ 0) (wrong : wrongLen w = some e) : verdict w = .wrongLen e := by
  rw [verdict, if_neg (mt (tooLarge_iff w).mp fits), if_neg (mt (isPoll_iff w).mp nonzero), wrong]

theorem verdict_eq_accept {w : State} (fits : ¬(w.maxlen ≠ 0 ∧ w.maxlen.toNat < w.len.toNat))
    (nonzero : w.len ≠ 0) (agrees : wrongLen w = none) : verdict w = .accept := by
  rw [verdict, if_neg (mt (tooLarge_iff w).mp fits), if_neg (mt (isPoll_iff w).mp nonzero), agrees]

theorem exec_vTooLarge (s : State) : exec .vTooLarge s = .next { s with
    event := some (.payloadTooLarge (snap s) s.maxlen)
    st := .scanningForSync, cls := 0, id := 0, len := 0, rxck := 0, pwp := 0, payv := false, cka := 0, ckb := 0 } := rfl

theorem exec_vPoll (s : State) : exec .vPoll s = .next { s with payv := true, pwp := 0, st := .expectChecksumLow } := rfl

theorem exec_vWrongLen (e : U16) (s : State) : exec (.vWrongLen e) s = .next { s with
    event := some (.wrongPayloadLength (snap s) e)
    st := .scanningForSync, cls := 0, id := 0, len := 0, rxck := 0, pwp := 0, payv := false, cka := 0, ckb := 0 } := rfl

theorem exec_vAccept (s : State) :
    exec .vAccept s = .next { s with payv := true, pwp := 0, st := .accumulatingPayload } := rfl

/-- Settles O14: FLD.LENHI runs the sub-operation of the verdict on the new LEN, and each clause's condition fixes that verdict. -/
theorem lengthHighRunsTheFirstVerdict : Obligations.LengthHighRunsTheFirstVerdict := by
  intro v s w hw
  have run : exec (.fldLenhi v) s = exec (verdict w).operation w := exec_fldLenhi hw
  rw [run]
  refine ⟨fun large => ?large, fun fits zero => ?zero, fun fits nonzero e entry differs => ?wrong,
    fun fits nonzero agrees => ?accept⟩
  case large => rw [verdict_eq_tooLarge large]; exact exec_vTooLarge w
  case zero => rw [verdict_eq_poll fits zero]; exact exec_vPoll w
  case wrong =>
    rw [verdict_eq_wrongLen fits nonzero (wrongLen_eq_some.mpr ⟨entry, differs⟩)]
    exact exec_vWrongLen e w
  case accept =>
    rw [verdict_eq_accept fits nonzero (wrongLen_eq_none agrees)]
    exact exec_vAccept w

end Sys2Proof.Machine
end

section
/-! FLD.PAY (41_field_assembler.md R124): its whole next state, and the range of the write index. -/

namespace Sys2Proof.Machine

@[simp] theorem exec_fldPay (v : U8) (s : State) : exec (.fldPay v) s = .next { s with
    pay := Memory.store s.pay s.pwp.toNat v, pwp := s.pwp + 1
    cka := s.cka + v, ckb := s.ckb + (s.cka + v)
    st := if s.pwp.toNat + 1 = s.len.toNat then .expectChecksumLow else .accumulatingPayload } := by
  rw [← if_congr (payDone_iff s) rfl rfl]
  rfl

/-- An index below LEN is one PAY has, since LEN is at most 65535. -/
theorem pwp_lt_payCap {s : State} (unfilled : s.pwp.toNat < s.len.toNat) : s.pwp.toNat < Config.payCap := by
  have len_bound : s.len.toNat < 65536 := s.len.isLt
  change s.pwp.toNat < 65535
  omega

/-- Below LEN the write index moves on without wrapping. -/
theorem toNat_pwp_succ {s : State} (unfilled : s.pwp.toNat < s.len.toNat) : (s.pwp + 1).toNat = s.pwp.toNat + 1 :=
  BitVec.toNat_add_of_lt (Nat.lt_of_le_of_lt (Nat.succ_le_of_lt unfilled) s.len.isLt)

/-- Settles O16: PWP below LEN is an index of PAY, so the store takes effect there, and PWP + 1 is still a 16-bit value. -/
theorem payloadByteIsStoredAtWritePosition : Obligations.PayloadByteIsStoredAtWritePosition := by
  intro v s canonical unfilled
  refine ⟨_, exec_fldPay v s, Memory.store_wf s.pwp.toNat v canonical, fun a => ?read, toNat_pwp_succ unfilled, rfl⟩
  have in_range : a = s.pwp.toNat ∧ a < Config.payCap ↔ a = s.pwp.toNat :=
    and_iff_left_of_imp fun here => here ▸ pwp_lt_payCap unfilled
  rw [Memory.read_store s.pwp.toNat a v canonical, if_congr in_range rfl rfl]

end Sys2Proof.Machine
end

section
/-! FLD.CKHI and the comparison (41_field_assembler.md R126, 43_checksum.md R154): the sub-operation of each outcome, the condition of each
outcome, and what each sub-operation does. -/

namespace Sys2Proof.Machine

/-- The sub-operation an outcome is carried out by. -/
def CkOutcome.operation : CkOutcome → Instr
  | .packet => .ckPacket
  | .poll => .ckPoll
  | .mismatch => .ckMismatch

/-- FLD.CKHI is the outcome's sub-operation on the state with RXCK complete. -/
theorem exec_fldCkhi {v : U8} {s w : State} (hw : w = { s with rxck := setHi s.rxck v }) :
    exec (.fldCkhi v) s = exec (ckOutcome w).operation w := by
  subst hw
  simp only [exec, execFldCkhi]
  cases ckOutcome { s with rxck := setHi s.rxck v } <;> rfl

theorem ckOutcome_eq_packet {w : State} (same : combine w.cka w.ckb = w.rxck) (nonzero : w.len ≠ 0) :
    ckOutcome w = .packet := by
  rw [ckOutcome, if_pos ((ckMatch_iff w).mpr same), if_neg (mt (isPoll_iff w).mp nonzero)]

theorem ckOutcome_eq_poll {w : State} (same : combine w.cka w.ckb = w.rxck) (zero : w.len = 0) : ckOutcome w = .poll := by
  rw [ckOutcome, if_pos ((ckMatch_iff w).mpr same), if_pos ((isPoll_iff w).mpr zero)]

theorem ckOutcome_eq_mismatch {w : State} (differs : combine w.cka w.ckb ≠ w.rxck) : ckOutcome w = .mismatch :=
  if_neg (mt (ckMatch_iff w).mp differs)

theorem exec_ckPacket (s : State) : exec .ckPacket s = .next { s with
    event := some (.packet s.cls s.id (Memory.prefixBytes s.pay s.len.toNat))
    st := .scanningForSync, cls := 0, id := 0, len := 0, rxck := 0, pwp := 0, payv := false, cka := 0, ckb := 0 } := rfl

theorem exec_ckPoll (s : State) : exec .ckPoll s = .next { s with
    event := some (.pollingMessage (snap s))
    st := .scanningForSync, cls := 0, id := 0, len := 0, rxck := 0, pwp := 0, payv := false, cka := 0, ckb := 0 } := rfl

/-- CK.MISMATCH raises FailedChecksum on the state with the body re-injected. -/
theorem exec_ckMismatch (s : State) : exec .ckMismatch s =
    .next (raise (.failedChecksum (snap s) (computedChecksum s)) (reinjectBytes (frameBody s) s)) := execCkMismatch_eq s

/-- Settles O18: FLD.CKHI runs the sub-operation of the outcome on the new RXCK, and each clause's condition fixes that outcome. -/
theorem checksumHighRunsTheOutcome : Obligations.ChecksumHighRunsTheOutcome := by
  intro v s w hw
  have run : exec (.fldCkhi v) s = exec (ckOutcome w).operation w := exec_fldCkhi hw
  rw [run]
  refine ⟨fun same nonzero => ?packet, fun same zero => ?poll, fun differs => ?mismatch⟩
  case packet => rw [ckOutcome_eq_packet same nonzero]; exact exec_ckPacket w
  case poll => rw [ckOutcome_eq_poll same zero]; exact exec_ckPoll w
  case mismatch =>
    rw [ckOutcome_eq_mismatch differs]
    exact ⟨_, exec_ckMismatch w, exec_ckMismatch w, raise_st _ _, _, _, raise_event _ _⟩

end Sys2Proof.Machine
end

section
/-! The single-byte fields (41_field_assembler.md R120, R121, R122, R125): the whole next state of each operation. -/

namespace Sys2Proof.Machine

@[simp] theorem exec_fldClass (v : U8) (s : State) : exec (.fldClass v) s = .next { s with
    cls := v, cka := s.cka + v, ckb := s.ckb + (s.cka + v), st := .expectId } := rfl

@[simp] theorem exec_fldId (v : U8) (s : State) : exec (.fldId v) s = .next { s with
    id := v, cka := s.cka + v, ckb := s.ckb + (s.cka + v), st := .expectLengthLow } := rfl

@[simp] theorem exec_fldLenlo (v : U8) (s : State) : exec (.fldLenlo v) s = .next { s with
    len := setLo s.len v, cka := s.cka + v, ckb := s.ckb + (s.cka + v), st := .expectLengthHigh } := rfl

@[simp] theorem exec_fldCklo (v : U8) (s : State) : exec (.fldCklo v) s = .next { s with
    rxck := setLo s.rxck v, st := .expectChecksumHigh } := rfl

/-- Settles O13: in each of the four STATEs `operationOf` is the field's operation whatever the byte, and that operation writes its
register, the sums where the checksum covers the byte, and STATE. -/
theorem singleByteFields : Obligations.SingleByteFields := by
  refine ⟨fun v => ?cls, exec_fldClass, fun v => ?id, exec_fldId, fun v => ?lenlo, exec_fldLenlo, fun v => ?cklo, exec_fldCklo⟩
  case cls => exact decodeWord_dispatchWord (.byte v) .expectClass
  case id => exact decodeWord_dispatchWord (.byte v) .expectId
  case lenlo => exact decodeWord_dispatchWord (.byte v) .expectLengthLow
  case cklo => exact decodeWord_dispatchWord (.byte v) .expectChecksumLow

end Sys2Proof.Machine
end

section
/-! CK.MISMATCH (43_checksum.md R157, 44_recovery.md R165 to R167): the rewind as a subtraction modulo 2^POS_W, the length of the body, and
the snapshot of a complete payload. -/

namespace Sys2Proof.Machine

/-- R167: the rewind of POS is the integer subtraction, reduced. -/
theorem rewindPos_pos_eq_sub (n : Nat) (s : State) :
    ((rewindPos n s).pos : Int) = ((s.pos : Int) - n) % (posMod s.config : Int) := by
  have below : n % posMod s.config ≤ posMod s.config := (Nat.mod_lt n (posMod_pos s.config)).le
  calc ((rewindPos n s).pos : Int)
      = ((s.pos : Int) - (n : Int) % posMod s.config + posMod s.config) % posMod s.config := by
        rw [rewindPos_pos, Int.natCast_mod, Nat.cast_add, Nat.cast_sub below, Int.natCast_mod, sub_add_eq_add_sub,
          add_sub_assoc]
    _ = ((s.pos : Int) - n) % posMod s.config := by rw [Int.add_emod_right, Int.sub_emod_emod]

/-- The body is the LEN payload bytes, four header bytes and two checksum bytes (R165). -/
@[simp] theorem frameBody_length (s : State) : (frameBody s).length = s.len.toNat + 6 := by
  simp [frameBody, headerBytes]

/-- Re-injecting the body takes POS back by LEN + 6. -/
theorem reinjectBytes_frameBody_pos (s : State) :
    ((reinjectBytes (frameBody s) s).pos : Int) = ((s.pos : Int) - (s.len.toNat + 6 : Nat)) % (posMod s.config : Int) := by
  rw [← frameBody_length s]
  exact rewindPos_pos_eq_sub _ _

/-- With the payload present and complete, R43's record holds its LEN bytes. -/
theorem payload_eq_of_complete {s : State} (present : s.payv = true) (complete : s.pwp = s.len) :
    payload s = some (Memory.prefixBytes s.pay s.len.toNat) := by
  rw [payload, if_pos present, complete]

/-- Settles O20: raising the event leaves the REPLAY and POS of the re-injection, and the record is the one of the state before it. -/
theorem mismatchReportsAndReinjects : Obligations.MismatchReportsAndReinjects := by
  intro s
  refine ⟨⟨_, exec_ckMismatch s, reinjectBytes_frameBody_pos s, rfl⟩, fun present complete => ?snapshot⟩
  case snapshot => rw [snap, payload_eq_of_complete present complete]; rfl

end Sys2Proof.Machine
end

section
/-! REINJECT (44_recovery.md R166, R167): its whole next state. -/

namespace Sys2Proof.Machine

theorem exec_reinject (s : State) : exec .reinject s = .next (reinjectBytes (frameBody s) s) := rfl

/-- Settles O21: the body is `frameBody`, its length LEN + 6 is what POS goes back by, and `reinjectBytes` writes REPLAY and POS alone. -/
theorem reinjectPutsTheBodyInFront : Obligations.ReinjectPutsTheBodyInFront := fun s =>
  ⟨_, exec_reinject s, reinjectBytes_replay (frameBody s) s, reinjectBytes_frameBody_pos s, rfl⟩

end Sys2Proof.Machine
end

section
/-! What does not trigger recovery (44_recovery.md R173): the operations that leave REPLAY and POS, and the one event that goes with
bytes added to REPLAY. -/

namespace Sys2Proof.Machine

/-- The operations that never write REPLAY or POS: all but the mismatch, its parent FLD.CKHI, REINJECT and RESET. -/
def keepsReplay : Instr → Bool
  | .fldCkhi _ | .ckMismatch | .reinject | .reset _ => false
  | _ => true

/-- Whatever the verdict, nothing is put back (R141). -/
theorem exec_verdict_replay_pos {d : Verdict} {s t : State} (run : exec d.operation s = .next t) :
    t.replay = s.replay ∧ t.pos = s.pos := by
  cases d <;> cases run <;> exact ⟨rfl, rfl⟩

theorem exec_replay_pos {i : Instr} {s t : State} (keeps : keepsReplay i = true) (run : exec i s = .next t) :
    t.replay = s.replay ∧ t.pos = s.pos := by
  cases i with
  | fldLenhi v =>
    rw [exec_fldLenhi rfl] at run
    simpa using exec_verdict_replay_pos run
  | fldCkhi | ckMismatch | reinject | reset => cases keeps
  | _ => cases run; exact ⟨rfl, rfl⟩

/-- An outcome's sub-operation leaves REPLAY, or it is the mismatch and emits FailedChecksum. -/
theorem exec_outcome_replay {o : CkOutcome} {s t : State} (run : exec o.operation s = .next t) :
    t.replay = s.replay ∨ ∃ f c, t.event = some (.failedChecksum f c) := by
  cases o with
  | packet => exact .inl (exec_replay_pos rfl run).1
  | poll => exact .inl (exec_replay_pos rfl run).1
  | mismatch => cases run; exact .inr ⟨_, _, raise_event _ _⟩

/-- REINJECT on its own is the only operation that adds to REPLAY without emitting FailedChecksum. -/
theorem exec_replay_suffix {i : Instr} {s t : State} {before : List U8} (run : exec i s = .next t) (other : i ≠ .reinject)
    (taken : s.replay <:+ before) : t.replay <:+ before ∨ ∃ f c, t.event = some (.failedChecksum f c) := by
  have kept : t.replay = s.replay → t.replay <:+ before := fun same => same ▸ taken
  cases i with
  | reinject => exact absurd rfl other
  | reset cfg => cases run; exact .inl List.nil_suffix
  | fldCkhi v =>
    rw [exec_fldCkhi rfl] at run
    exact (exec_outcome_replay run).imp_left kept
  | ckMismatch => exact (exec_outcome_replay (o := .mismatch) run).imp_left kept
  | _ => exact .inl (kept (exec_replay_pos rfl run).1)

/-- No symbol selects REINJECT: it has no dispatch word (30_encoding.md R95). -/
theorem operationOf_ne_reinject (x : Symbol) (st : DecState) : operationOf x st ≠ .reinject := by
  cases x with
  | flush => nofun
  | byte v =>
    cases st with
    | scanningForSync | expectSyncTrailer => simp only [operationOf]; split_ifs <;> nofun
    | _ => nofun

/-- Over a step REPLAY loses bytes from its front only, unless FailedChecksum is emitted. -/
theorem step_replay_suffix {s t : State} (run : step s = .next t) :
    t.replay <:+ s.replay ∨ ∃ f c, t.event = some (.failedChecksum f c) := by
  rcases step_is s with ⟨cfg, -, reset⟩ | ⟨-, -, -, hold⟩ | ⟨v, rest, -, front, replayed⟩ | ⟨v, rest, -, -, -, byte⟩ |
    ⟨rest, -, -, -, flush⟩
  · rw [reset] at run
    exact exec_replay_suffix run Instr.noConfusion List.suffix_rfl
  · rw [hold] at run
    cases run
    exact .inl List.suffix_rfl
  · rw [replayed] at run
    exact exec_replay_suffix run (operationOf_ne_reinject _ _) (front ▸ List.suffix_cons v rest)
  · rw [byte] at run
    exact exec_replay_suffix run (operationOf_ne_reinject _ _) List.suffix_rfl
  · rw [flush] at run
    exact exec_replay_suffix run Instr.noConfusion List.suffix_rfl

/-- Settles O26: the six operations named are among those that leave REPLAY and POS, and a step selects no bare REINJECT. -/
theorem onlyMismatchRewinds : Obligations.OnlyMismatchRewinds := by
  refine ⟨fun s t i named run => ?named, fun s t run => step_replay_suffix run⟩
  case named =>
    have keeps : keepsReplay i = true := by
      rcases named with ⟨v, rfl⟩ | rfl | ⟨e, rfl⟩ | rfl | rfl | rfl <;> rfl
    exact exec_replay_pos keeps run

end Sys2Proof.Machine
end

section
/-! Packets and their length (60_exceptions.md R204, 43_checksum.md R155): every step answers a next state; the operations that deliver a
packet; and a step that delivers one is at ExpectChecksumHigh with LEN not 0. -/

namespace Sys2Proof.Machine

/-! ### Totality -/

/-- Whatever a step selects is a meaning, which answers a next state, or the hold. -/
theorem step_next (s : State) : ∃ t, step s = .next t := by
  rcases step_is s with ⟨cfg, -, reset⟩ | ⟨-, -, -, hold⟩ | ⟨v, rest, -, -, replayed⟩ | ⟨v, rest, -, -, -, byte⟩ |
    ⟨rest, -, -, -, flush⟩
  · exact reset ▸ exec_next _ _
  · exact ⟨_, hold⟩
  · exact replayed ▸ exec_next _ _
  · exact byte ▸ exec_next _ _
  · exact flush ▸ exec_next _ _

/-! ### The operations that deliver a packet -/

/-- CK.PACKET and its parent FLD.CKHI. -/
def deliversPacket : Instr → Bool
  | .fldCkhi _ | .ckPacket => true
  | _ => false

theorem len_ne_zero_of_packet {w : State} (outcome : ckOutcome w = .packet) : w.len ≠ 0 := by
  intro zero
  rw [ckOutcome, if_pos ((isPoll_iff w).mpr zero)] at outcome
  split at outcome <;> cases outcome

/-- A verdict reports a bad length or continues the frame; it delivers nothing (42_validator.md R137 to R140). -/
theorem exec_verdict_no_packet {d : Verdict} {s t : State} {cls id : U8} {p : List U8}
    (run : exec d.operation s = .next t) (silent : s.event = none) : t.event ≠ some (.packet cls id p) := by
  intro packet
  cases d with
  | tooLarge | wrongLen => cases run; cases packet
  | poll | accept => cases run; cases silent.symm.trans packet

/-- Of the three outcomes the packet alone delivers one, the first LEN bytes of PAY (43_checksum.md R155). -/
theorem exec_outcome_packet {o : CkOutcome} {s t : State} {cls id : U8} {p : List U8}
    (run : exec o.operation s = .next t) (packet : t.event = some (.packet cls id p)) :
    o = .packet ∧ p = Memory.prefixBytes s.pay s.len.toNat := by
  cases o with
  | packet => cases run; cases packet; exact ⟨rfl, rfl⟩
  | poll | mismatch => cases run; cases packet

theorem exec_fldCkhi_packet {v : U8} {s t : State} {cls id : U8} {p : List U8}
    (run : exec (.fldCkhi v) s = .next t) (packet : t.event = some (.packet cls id p)) :
    s.len ≠ 0 ∧ p.length = s.len.toNat := by
  rw [exec_fldCkhi rfl] at run
  obtain ⟨outcome, rfl⟩ := exec_outcome_packet run packet
  have nonzero := len_ne_zero_of_packet outcome
  exact ⟨nonzero, Memory.prefixBytes_length _ _⟩

theorem deliversPacket_of_exec {i : Instr} {s t : State} {cls id : U8} {p : List U8} (run : exec i s = .next t)
    (silent : s.event = none) (packet : t.event = some (.packet cls id p)) : deliversPacket i = true := by
  cases i with
  | fldCkhi | ckPacket => rfl
  | fldLenhi v =>
    rw [exec_fldLenhi rfl] at run
    exact absurd packet (exec_verdict_no_packet run silent)
  | vTooLarge | vWrongLen | ckPoll | ckMismatch => cases run; cases packet
  | _ => cases run; cases silent.symm.trans packet

/-! ### The step that delivers a packet -/

/-- FLD.CKHI is the one a symbol can select, at ExpectChecksumHigh: CK.PACKET has no dispatch word (30_encoding.md R95). -/
theorem operationOf_deliversPacket {x : Symbol} {st : DecState} (delivers : deliversPacket (operationOf x st) = true) :
    st = .expectChecksumHigh ∧ ∃ v, operationOf x st = .fldCkhi v := by
  cases x with
  | flush => cases delivers
  | byte v =>
    cases st with
    | expectChecksumHigh => exact ⟨rfl, v, rfl⟩
    | scanningForSync | expectSyncTrailer => simp only [operationOf] at delivers; split_ifs at delivers <;> cases delivers
    | _ => cases delivers

theorem selected_packet {x : Symbol} {st : DecState} {s t : State} {cls id : U8} {p : List U8}
    (run : exec (operationOf x st) s = .next t) (silent : s.event = none) (packet : t.event = some (.packet cls id p)) :
    st = .expectChecksumHigh ∧ s.len ≠ 0 ∧ p.length = s.len.toNat := by
  obtain ⟨last, v, checks⟩ := operationOf_deliversPacket (deliversPacket_of_exec run silent packet)
  rw [checks] at run
  exact ⟨last, exec_fldCkhi_packet run packet⟩

/-- From every state: taking the symbol leaves LEN and clears the event port, so the packet is the selected operation's. -/
theorem step_packet {s t : State} {cls id : U8} {p : List U8} (run : step s = .next t)
    (packet : t.event = some (.packet cls id p)) :
    s.st = .expectChecksumHigh ∧ s.len ≠ 0 ∧ p.length = s.len.toNat := by
  rcases step_is s with ⟨cfg, -, reset⟩ | ⟨-, -, -, hold⟩ | ⟨v, rest, -, -, replayed⟩ | ⟨v, rest, -, -, -, byte⟩ |
    ⟨rest, -, -, -, flush⟩
  · cases deliversPacket_of_exec (reset ▸ run) rfl packet
  · cases hold.symm.trans run; cases packet
  · rw [replayed] at run
    simpa using selected_packet run rfl packet
  · rw [byte] at run
    simpa using selected_packet run rfl packet
  · cases deliversPacket_of_exec (flush ▸ run) rfl packet

/-- Settles O39: a packet comes from ExpectChecksumHigh, where the invariant bounds LEN by LMAX, with its payload the first LEN bytes of PAY
and LEN not 0. -/
theorem stepIsTotalAndPacketsHaveDeclaredLength : Obligations.StepIsTotalAndPacketsHaveDeclaredLength := by
  refine ⟨exec_next, step_next, fun s t c i p inv run packet => ?_⟩
  obtain ⟨last, nonzero, length⟩ := step_packet run packet
  have present : s.st.holdsPayload = true := by rw [last]; rfl
  have bound : s.len.toNat ≤ lmax s.maxlen := inv.lenBound present
  have positive : 1 ≤ s.len.toNat := Nat.pos_of_ne_zero (mt (BitVec.eq_of_toNat_eq (y := 0)) nonzero)
  exact ⟨length, length ▸ positive, length ▸ bound⟩

end Sys2Proof.Machine
end

section
/-! MAXLEN and the reset (70_reset_and_hazards.md R237): RESET alone writes MAXLEN, and no symbol selects RESET. -/

namespace Sys2Proof.Machine

/-- The pin's operation, the one that writes MAXLEN (45_control.md R181, R182). -/
def isReset : Instr → Bool
  | .reset _ => true
  | _ => false

theorem exec_verdict_maxlen {d : Verdict} {s t : State} (run : exec d.operation s = .next t) : t.maxlen = s.maxlen := by
  cases d <;> cases run <;> rfl

theorem exec_outcome_maxlen {o : CkOutcome} {s t : State} (run : exec o.operation s = .next t) : t.maxlen = s.maxlen := by
  cases o <;> cases run <;> rfl

theorem exec_maxlen {i : Instr} {s t : State} (other : isReset i = false) (run : exec i s = .next t) :
    t.maxlen = s.maxlen := by
  cases i with
  | reset => cases other
  | fldLenhi v =>
    rw [exec_fldLenhi rfl] at run
    simpa using exec_verdict_maxlen run
  | fldCkhi v =>
    rw [exec_fldCkhi rfl] at run
    simpa using exec_outcome_maxlen run
  | _ => cases run; rfl

/-- RESET is the pin: it has no dispatch word (30_encoding.md R90). -/
theorem operationOf_not_reset (x : Symbol) (st : DecState) : isReset (operationOf x st) = false := by
  cases x with
  | flush => rfl
  | byte v =>
    cases st with
    | scanningForSync | expectSyncTrailer => simp only [operationOf]; split_ifs <;> rfl
    | _ => rfl

theorem exec_reset_discards {cfg : U16} {s t : State} (run : exec (.reset cfg) s = .next t) :
    FrameClear t ∧ t.st = .scanningForSync ∧ t.replay = [] := by
  cases run
  exact ⟨endFrame_clear s, endFrame_st s, rfl⟩

/-- Taking a symbol leaves MAXLEN, and so does the operation it selects. -/
theorem step_maxlen {s t : State} (released : pinNow s = none) (run : step s = .next t) : t.maxlen = s.maxlen := by
  rcases step_is s with ⟨cfg, asserted, -⟩ | ⟨-, -, -, hold⟩ | ⟨v, rest, -, -, replayed⟩ | ⟨v, rest, -, -, -, byte⟩ |
    ⟨rest, -, -, -, flush⟩
  · cases asserted.symm.trans released
  · cases hold.symm.trans run
    exact beginStep_maxlen s
  · rw [replayed] at run
    simpa using exec_maxlen (operationOf_not_reset _ _) run
  · rw [byte] at run
    simpa using exec_maxlen (operationOf_not_reset _ _) run
  · rw [flush] at run
    simpa using exec_maxlen rfl run

/-- Settles O27: with the pin released no operation that writes MAXLEN is selected; the asserted pin selects RESET, which discards frame
and replay. -/
theorem maxlenChangesOnlyByReset : Obligations.MaxlenChangesOnlyByReset := by
  intro s t run
  refine ⟨fun released => step_maxlen released run, fun asserted => ?discards⟩
  case discards =>
    obtain ⟨cfg, pin⟩ := Option.ne_none_iff_exists'.mp asserted
    exact exec_reset_discards (step_pin pin ▸ run)

end Sys2Proof.Machine
end

section
/-! The dispatch word read back (30_encoding.md R88 to R92): every word is its three fields, the STATE codes, and the operation of a word
against the word of an operation. -/

namespace Sys2Proof.Machine

open Sys2Proof

/-! ### Words and codes -/

/-- R89 read backwards: the fields of a word make the word. -/
theorem dispatch_fields (d : DispatchWord) : dispatch (BitVec.ofBool (flushField d)) (stateField d) (vField d) = d := by
  apply BitVec.eq_of_getLsbD_eq
  intro i below
  rw [getLsbD_dispatch, vField, stateField, flushField, BitVec.getLsbD_extractLsb', BitVec.getLsbD_extractLsb',
    BitVec.getLsbD_ofBool]
  split_ifs with byte code
  · simp [byte]
  · have place : 8 + (i - 8) = i := by omega
    simp [code, place]
  · have top : i = 12 := by omega
    simp [top]

/-- The decoder of a 13-bit word is `decodeWord`. -/
theorem decode_toNat (d : DispatchWord) : decode d.toNat = decodeWord d := by
  rw [decode, if_pos d.isLt, BitVec.ofNat_toNat, BitVec.setWidth_eq]

theorem decode_eq_ok {w : Nat} {i : Instr} (decodes : decode w = .ok i) :
    w < 2 ^ 13 ∧ decodeWord (BitVec.ofNat 13 w) = .ok i := by
  rw [decode] at decodes
  split at decodes
  next fits => exact ⟨fits, decodes⟩
  next => cases decodes

theorem ofCode_code (st : DecState) : DecState.ofCode st.code = some st := by cases st <;> rfl

theorem code_le_eight (st : DecState) : st.code.toNat ≤ 8 := by cases st <;> decide

/-- R92: the codes from 9 are reserved. -/
theorem operationAt_reserved {c : BitVec 4} (v : U8) (reserved : 9 ≤ c.toNat) :
    operationAt c v = .error (.reservedState c) := by
  have other (k : BitVec 4) (legal : k.toNat < 9) : c ≠ k := fun same => by subst same; omega
  simp only [operationAt, if_neg (other 0 (by decide)), if_neg (other 1 (by decide)), if_neg (other 2 (by decide)),
    if_neg (other 3 (by decide)), if_neg (other 4 (by decide)), if_neg (other 5 (by decide)), if_neg (other 6 (by decide)),
    if_neg (other 7 (by decide)), if_neg (other 8 (by decide))]

/-- The codes below 9 are those of the nine STATE values (R88). -/
theorem exists_code_eq {c : BitVec 4} (legal : c.toNat ≤ 8) : ∃ st : DecState, st.code = c := by
  have back : ∀ c : BitVec 4, c.toNat ≤ 8 → (DecState.ofCode c).map DecState.code = some c := by decide
  obtain ⟨st, -, code⟩ := Option.map_eq_some_iff.mp (back c legal)
  exact ⟨st, code⟩

/-! ### From an operation to its word and back -/

/-- The word of an operation a byte selects in a STATE, and FLUSH's, are the dispatch words of R89. -/
theorem encode_operationOf (v : U8) (st : DecState) : encode (operationOf (.byte v) st) = some (dispatchWord (.byte v) st) := by
  cases st with
  | scanningForSync =>
    by_cases sync : v = 0xB5
    · subst sync; rfl
    · simp only [operationOf, if_neg sync]; rfl
  | expectSyncTrailer =>
    by_cases trailer : v = 0x62
    · subst trailer; rfl
    · by_cases sync : v = 0xB5
      · subst sync; rfl
      · simp only [operationOf, if_neg trailer, if_neg sync]; rfl
  | _ => rfl

/-- The operation a symbol selects has an operand its rule admits (40_scanner.md R111, R115). -/
theorem operationOf_wf (x : Symbol) (st : DecState) : (operationOf x st).wf = true := by
  cases x with
  | flush => rfl
  | byte v =>
    cases st with
    | scanningForSync | expectSyncTrailer => simp only [operationOf]; split_ifs <;> simp_all [Instr.wf]
    | _ => rfl

/-- A well-formed operation with a word is the one a symbol selects in a STATE, and its word is that symbol's. -/
theorem exists_operationOf_eq {i : Instr} {d : DispatchWord} (wf : i.wf = true) (word : encode i = some d) :
    ∃ x st, operationOf x st = i ∧ dispatchWord x st = d := by
  cases i with
  | flush => exact ⟨.flush, .scanningForSync, rfl, Option.some.inj word⟩
  | scanSync1 => exact ⟨.byte 0xB5, .scanningForSync, operationOf_scanning_sync1, Option.some.inj word⟩
  | scanSkip v =>
    have other : v ≠ 0xB5 := by simpa [Instr.wf] using wf
    exact ⟨.byte v, .scanningForSync, if_neg other, Option.some.inj word⟩
  | trlSync2 => exact ⟨.byte 0x62, .expectSyncTrailer, operationOf_trailer_sync2, Option.some.inj word⟩
  | trlRepeat => exact ⟨.byte 0xB5, .expectSyncTrailer, operationOf_trailer_sync1, Option.some.inj word⟩
  | trlAbort v =>
    have other : v ≠ 0x62 ∧ v ≠ 0xB5 := by simpa [Instr.wf] using wf
    exact ⟨.byte v, .expectSyncTrailer, (if_neg other.1).trans (if_neg other.2), Option.some.inj word⟩
  | fldClass v => exact ⟨.byte v, .expectClass, rfl, Option.some.inj word⟩
  | fldId v => exact ⟨.byte v, .expectId, rfl, Option.some.inj word⟩
  | fldLenlo v => exact ⟨.byte v, .expectLengthLow, rfl, Option.some.inj word⟩
  | fldLenhi v => exact ⟨.byte v, .expectLengthHigh, rfl, Option.some.inj word⟩
  | fldPay v => exact ⟨.byte v, .accumulatingPayload, rfl, Option.some.inj word⟩
  | fldCklo v => exact ⟨.byte v, .expectChecksumLow, rfl, Option.some.inj word⟩
  | fldCkhi v => exact ⟨.byte v, .expectChecksumHigh, rfl, Option.some.inj word⟩
  | vTooLarge | vPoll | vWrongLen | vAccept | ckPacket | ckPoll | ckMismatch | reinject | reset => cases word

/-- Settles O2: the operation is the one some symbol selects, and the decoder gives that one for the symbol's word. -/
theorem decodeOfEncodeIsTheInstruction : Obligations.DecodeOfEncodeIsTheInstruction := by
  intro i d wf word
  obtain ⟨x, st, rfl, rfl⟩ := exists_operationOf_eq wf word
  rw [decode_toNat, decodeWord_dispatchWord]

/-! ### From a word to its operation -/

/-- What decodes with F = 1 is FLUSH; with F = 0 the code is a STATE's, and the word is the dispatch word of its byte there. -/
theorem decodeWord_eq_ok {d : DispatchWord} {i : Instr} (decodes : decodeWord d = .ok i) :
    (flushField d = true ∧ i = .flush) ∨
    (flushField d = false ∧ ∃ st, st.code = stateField d ∧ dispatchWord (.byte (vField d)) st = d ∧
      i = operationOf (.byte (vField d)) st) := by
  cases flush : flushField d with
  | true =>
    rw [← dispatch_fields d, flush, decodeWord_dispatch] at decodes
    cases decodes
    exact .inl ⟨rfl, rfl⟩
  | false =>
    have fields : dispatch 0 (stateField d) (vField d) = d := by
      have := dispatch_fields d
      rwa [flush] at this
    have legal : (stateField d).toNat ≤ 8 := by
      by_contra reserved
      rw [← fields, decodeWord_dispatch, if_neg (by decide), operationAt_reserved _ (by omega)] at decodes
      cases decodes
    obtain ⟨st, code⟩ := exists_code_eq legal
    have word : dispatchWord (.byte (vField d)) st = d := by rw [dispatchWord, code, fields]
    have selected := decodeWord_dispatchWord (.byte (vField d)) st
    rw [word, decodes] at selected
    exact .inr ⟨rfl, st, code, word, Except.ok.inj selected⟩

/-- Settles O3: a decoded word is FLUSH's or the dispatch word of a byte in a STATE, which is the word of the operation selected. -/
theorem decodedInstructionHasTheWord : Obligations.DecodedInstructionHasTheWord := by
  intro w i decodes
  obtain ⟨fits, word⟩ := decode_eq_ok decodes
  rcases decodeWord_eq_ok word with ⟨flush, rfl⟩ | ⟨byte, st, -, same, rfl⟩
  · exact ⟨rfl, fits, fun byte => Bool.noConfusion (flush.symm.trans byte), fun _ => rfl⟩
  · exact ⟨operationOf_wf _ _, fits, fun _ => by rw [encode_operationOf, same],
      fun flush => Bool.noConfusion (byte.symm.trans flush)⟩

/-- Settles O5: F = 0 leaves the code to decide, and the codes from 9 have no row. -/
theorem reservedStateCodesSelectNothing : Obligations.ReservedStateCodesSelectNothing := by
  refine ⟨fun c v reserved => ?refused, fun st => ⟨code_le_eight st, ofCode_code st⟩⟩
  case refused => rw [decodeWord_dispatch, if_neg (by decide), operationAt_reserved v reserved]

/-- Settles O1: the sixteen words, one evaluation of the decoder each. -/
theorem spelledWordsDecode : Obligations.SpelledWordsDecode := by
  refine ⟨?_, ?_, ?_, ?_, ?_, ?_, ?_, ?_, ?_, ?_, ?_, ?_, ?_, ?_, ?_, ?_⟩ <;> decide

/-! ### Rows -/

/-- Row `k` is the first of the rows to match `d`. -/
def FirstRow (rows : List OpRow) (d : DispatchWord) (k : Nat) : Prop :=
  (∃ r, rows[k]? = some r ∧ d &&& r.mask = r.pat) ∧ ∀ j < k, ∀ r, rows[j]? = some r → d &&& r.mask ≠ r.pat

/-- Of two first rows neither comes before the other. -/
theorem FirstRow.unique {rows : List OpRow} {d : DispatchWord} {k j : Nat} (hk : FirstRow rows d k) (hj : FirstRow rows d j) :
    k = j := by
  obtain ⟨⟨r, rowK, matchK⟩, beforeK⟩ := hk
  obtain ⟨⟨q, rowJ, matchJ⟩, beforeJ⟩ := hj
  rcases Nat.lt_trichotomy k j with less | same | more
  · exact absurd matchK (beforeJ k less r rowK)
  · exact same
  · exact absurd matchJ (beforeK j more q rowJ)

/-- What `firstMatch` builds, it builds from the first row that matches. -/
theorem exists_firstRow {rows : List OpRow} {d : DispatchWord} {i : Instr} (found : firstMatch rows d = some i) :
    ∃ k r, rows[k]? = some r ∧ d &&& r.mask = r.pat ∧ i = r.build (vField d) ∧ FirstRow rows d k := by
  induction rows with
  | nil => cases found
  | cons q rows ih =>
    rw [firstMatch] at found
    split at found
    next here =>
      exact ⟨0, q, rfl, here, (Option.some.inj found).symm, ⟨q, rfl, here⟩, fun j before => absurd before (Nat.not_lt_zero j)⟩
    next passed =>
      obtain ⟨k, r, row, hit, built, -, before⟩ := ih found
      refine ⟨k + 1, r, row, hit, built, ⟨r, row, hit⟩, fun j less r' row' => ?_⟩
      cases j with
      | zero => cases row'; exact passed
      | succ j => exact before j (Nat.lt_of_succ_lt_succ less) r' row'

theorem firstMatch_of_decodeWord {d : DispatchWord} {i : Instr} (decodes : decodeWord d = .ok i) :
    firstMatch opRows d = some i := by
  rw [decodeWord] at decodes
  split at decodes
  next j found => rw [found, Except.ok.inj decodes]
  next => cases decodes

/-- F = 0 keeps a byte's word off row 1, which tests F alone. -/
theorem firstRow_byte_ne_zero {v : U8} {st : DecState} {k : Nat} (first : FirstRow opRows (dispatchWord (.byte v) st) k) :
    k ≠ 0 := by
  rintro rfl
  obtain ⟨⟨r, row, hit⟩, -⟩ := first
  cases row
  exact absurd ((mask_flush 0 st.code v).mp hit) (by decide)

/-- The row by which a byte is decoded. -/
theorem exists_row_of_byte (st : DecState) (v : U8) : ∃ k r, opRows[k]? = some r ∧
    dispatchWord (.byte v) st &&& r.mask = r.pat ∧ decodeWord (dispatchWord (.byte v) st) = .ok (r.build v) ∧
    FirstRow opRows (dispatchWord (.byte v) st) k := by
  have decodes := decodeWord_dispatchWord (.byte v) st
  obtain ⟨k, r, row, hit, built, first⟩ := exists_firstRow (firstMatch_of_decodeWord decodes)
  rw [show vField (dispatchWord (.byte v) st) = v from vField_dispatch 0 st.code v] at built
  exact ⟨k, r, row, hit, built ▸ decodes, first⟩

/-- From ExpectClass on STATE alone names the operation (41_field_assembler.md R129). -/
theorem operationOf_mnemonic {st : DecState} (body : 2 ≤ st.code.toNat) (v w : U8) :
    (operationOf (.byte v) st).mnemonic = (operationOf (.byte w) st).mnemonic := by
  cases st with
  | scanningForSync | expectSyncTrailer => exact absurd body (by decide)
  | _ => rfl

/-- Settles O4: the row that decodes a byte is the first to match, which is unique, and not row 1. -/
theorem everySymbolSelectsExactlyOneRow : Obligations.EverySymbolSelectsExactlyOneRow := by
  refine ⟨fun st v => ?row, fun st => decodeWord_dispatchWord .flush st, fun st v w i j body hi hj => ?mnemonic⟩
  case row =>
    obtain ⟨k, r, row, hit, decodes, first⟩ := exists_row_of_byte st v
    refine ⟨k, ⟨Nat.pos_of_ne_zero (firstRow_byte_ne_zero first), ⟨r, row, hit, decodes⟩, first.2⟩, ?_⟩
    rintro j ⟨-, ⟨q, rowJ, hitJ, -⟩, before⟩
    exact FirstRow.unique ⟨⟨q, rowJ, hitJ⟩, before⟩ first
  case mnemonic =>
    rw [decodeWord_dispatchWord] at hi hj
    cases hi
    cases hj
    exact operationOf_mnemonic body v w

end Sys2Proof.Machine
end

section
/-! One step by cases: the symbol taken, as a relation, and what a step is (20_memory.md R68, 60_exceptions.md R200, R212). -/

namespace Sys2Proof.Machine

/-- `u` is `s` with the step begun and the symbol `x` taken and counted: from REPLAY first, from IN while REPLAY is empty. -/
inductive Takes (s : State) : Symbol → State → Prop where
  | replay {v : U8} {rest : List U8} (front : s.replay = v :: rest) :
      Takes s (.byte v) (advancePos { beginStep s with replay := rest })
  | input {x : Symbol} {rest : List Symbol} (empty : s.replay = []) (front : s.inputs = x :: rest) :
      Takes s x (countSymbol x { beginStep s with inputs := rest })

namespace Takes

variable {s u : State} {x : Symbol}

/-- Taking a symbol leaves STATE, the frame registers, PAY, MAXLEN and the wiring. -/
theorem frame (h : Takes s x u) :
    { u with replay := s.replay, inputs := s.inputs, pos := s.pos, event := s.event, resetPin := s.resetPin } = s := by
  cases h with
  | replay => rfl
  | input => cases x <;> rfl

theorem st (h : Takes s x u) : u.st = s.st := by cases h <;> simp
theorem cls (h : Takes s x u) : u.cls = s.cls := by cases h <;> simp
theorem id (h : Takes s x u) : u.id = s.id := by cases h <;> simp
theorem len (h : Takes s x u) : u.len = s.len := by cases h <;> simp
theorem rxck (h : Takes s x u) : u.rxck = s.rxck := by cases h <;> simp
theorem pwp (h : Takes s x u) : u.pwp = s.pwp := by cases h <;> simp
theorem payv (h : Takes s x u) : u.payv = s.payv := by cases h <;> simp
theorem pay (h : Takes s x u) : u.pay = s.pay := by cases h <;> simp
theorem cka (h : Takes s x u) : u.cka = s.cka := by cases h <;> simp
theorem ckb (h : Takes s x u) : u.ckb = s.ckb := by cases h <;> simp
theorem maxlen (h : Takes s x u) : u.maxlen = s.maxlen := by cases h <;> simp
theorem config (h : Takes s x u) : u.config = s.config := by cases h <;> simp

theorem event (h : Takes s x u) : u.event = none := by cases h <;> simp

theorem resetPin (h : Takes s x u) : u.resetPin = s.resetPin.tail := by cases h <;> simp

theorem byte_pos {v : U8} (h : Takes s (.byte v) u) : u.pos = (s.pos + 1) % posMod s.config := by cases h <;> simp

theorem flush_pos (h : Takes s .flush u) : u.pos = s.pos := by cases h; rfl

/-- Where the symbol came from. -/
theorem source (h : Takes s x u) :
    (∃ v, x = .byte v ∧ s.replay = v :: u.replay ∧ u.inputs = s.inputs) ∨
    (s.replay = [] ∧ u.replay = [] ∧ s.inputs = x :: u.inputs) := by
  cases h with
  | replay front => exact .inl ⟨_, rfl, front, rfl⟩
  | input empty front => exact .inr ⟨empty, by simpa using empty, by simpa using front⟩

/-- The two sides of the byte source as one sequence: its head is taken. -/
theorem stream (h : Takes s x u) :
    s.replay.map Symbol.byte ++ s.inputs = x :: (u.replay.map Symbol.byte ++ u.inputs) := by
  rcases h.source with ⟨v, rfl, replay, inputs⟩ | ⟨empty, after, inputs⟩
  · rw [replay, inputs]; rfl
  · rw [empty, after, inputs]; rfl

end Takes

/-- What a step from `s` to `t` is. -/
inductive StepCase (s t : State) : Prop where
  | reset (cfg : U16) (asserted : pinNow s = some cfg) (run : exec (.reset cfg) (beginStep s) = .next t)
  | hold (released : pinNow s = none) (noReplay : s.replay = []) (noInput : s.inputs = []) (same : t = beginStep s)
  | taken (x : Symbol) (u : State) (released : pinNow s = none) (takes : Takes s x u)
      (run : exec (operationOf x s.st) u = .next t)

theorem step_case {s t : State} (run : step s = .next t) : StepCase s t := by
  rcases step_is s with ⟨cfg, asserted, reset⟩ | ⟨released, noReplay, noInput, hold⟩ | ⟨v, rest, released, front, replayed⟩ |
    ⟨v, rest, released, empty, front, byte⟩ | ⟨rest, released, empty, front, flush⟩
  · exact .reset cfg asserted (reset ▸ run)
  · exact .hold released noReplay noInput (Host.Outcome.next.inj (run.symm.trans hold))
  · exact .taken _ _ released (.replay front) (replayed ▸ run)
  · exact .taken (.byte v) _ released (.input empty front) (byte ▸ run)
  · exact .taken .flush _ released (.input empty front) (flush ▸ run)

theorem step_of_takes {s u : State} {x : Symbol} (released : pinNow s = none) (takes : Takes s x u) :
    step s = exec (operationOf x s.st) u := by
  cases takes with
  | replay front => exact step_replay released front
  | input empty front => exact step_input released empty front

/-! ### The operations a STATE fixes -/

theorem exec_operationOf_lengthHigh {v : U8} {s w : State} (hw : w = acc v { s with len := setHi s.len v }) :
    exec (operationOf (.byte v) .expectLengthHigh) s = exec (verdict w).operation w := exec_fldLenhi hw

theorem exec_operationOf_checksumHigh {v : U8} {s w : State} (hw : w = { s with rxck := setHi s.rxck v }) :
    exec (operationOf (.byte v) .expectChecksumHigh) s = exec (ckOutcome w).operation w := exec_fldCkhi hw

theorem exec_operationOf_payload (v : U8) (s : State) :
    exec (operationOf (.byte v) .accumulatingPayload) s = .next { s with
      pay := Memory.store s.pay s.pwp.toNat v, pwp := s.pwp + 1
      cka := s.cka + v, ckb := s.ckb + (s.cka + v)
      st := if s.pwp.toNat + 1 = s.len.toNat then .expectChecksumLow else .accumulatingPayload } := exec_fldPay v s

theorem exec_operationOf_flush (st : DecState) (s : State) : exec (operationOf .flush st) s = .next (endFrame s) := rfl

end Sys2Proof.Machine
end

section
/-! Placing a dispatch word (assumption 13), and the steps of 20_memory.md R68, R70 and 60_exceptions.md R200, R212 written out. -/

namespace Sys2Proof.Machine

/-- Settles O6: a step runs `operationOf` of the symbol taken, which is what its dispatch word decodes to. -/
theorem stepRunsTheDecodedInstruction : Obligations.StepRunsTheDecodedInstruction := by
  intro s i released
  have selected {x : Symbol} (decodes : decodeWord (dispatchWord x s.st) = .ok i) : operationOf x s.st = i :=
    Except.ok.inj ((decodeWord_dispatchWord x s.st).symm.trans decodes)
  refine ⟨fun v rest front decodes => ?replayed, fun v rest empty front decodes => ?byte, fun rest empty front decodes => ?flush⟩
  case replayed => rw [step_replay released front, selected decodes]; rfl
  case byte => rw [step_input released empty front, selected decodes]; rfl
  case flush => rw [step_input released empty front, selected decodes]; rfl

/-- Settles O7: with both sides of the byte source empty a step is `beginStep`. -/
theorem stepHoldsTheStateWithoutSymbol : Obligations.StepHoldsTheStateWithoutSymbol :=
  fun _ released noReplay noInput => step_quiet released noReplay noInput

/-- Settles O8: the asserted pin makes the step RESET on the begun step, which has taken no symbol. -/
theorem resetPinWinsOverEverySymbol : Obligations.ResetPinWinsOverEverySymbol :=
  fun _ _ asserted => step_pin asserted

/-- A placed symbol is the one the next step takes; nothing but REPLAY, POS, the event, IN and the pin's schedule differs. -/
theorem placeSymbol_takes (x : Symbol) (s : State) : ∃ u, Takes (placeSymbol x s) x u ∧
    { u with replay := s.replay, inputs := s.inputs, pos := s.pos, event := s.event, resetPin := s.resetPin } = s := by
  cases x with
  | flush => exact ⟨_, .input rfl rfl, rfl⟩
  | byte v =>
    cases replay : s.replay with
    | nil =>
      have placed : placeSymbol (.byte v) s = { s with inputs := .byte v :: s.inputs.tail } := by simp [placeSymbol, replay]
      rw [placed, ← replay]
      exact ⟨_, .input replay rfl, rfl⟩
    | cons old rest =>
      have placed : placeSymbol (.byte v) s = { s with replay := v :: rest } := by simp [placeSymbol, replay]
      rw [placed, ← replay]
      exact ⟨_, .replay rfl, rfl⟩

theorem placeSymbol_resetPin (x : Symbol) (s : State) : (placeSymbol x s).resetPin = s.resetPin := by
  unfold placeSymbol
  split <;> rfl

theorem placeSymbol_st (x : Symbol) (s : State) : (placeSymbol x s).st = s.st := by
  unfold placeSymbol
  split <;> rfl

theorem pinNow_of_releasePin {s : State} {pin : List (Option U16)} (schedule : s.resetPin = releasePin pin) :
    pinNow s = none := by
  rw [pinNow, schedule]
  match pin with
  | [] | none :: _ | some _ :: _ => rfl

/-- The word `decode` accepts makes, once placed, the operation it decodes to. -/
theorem operationOf_symbolOf {d : DispatchWord} {i : Instr} (decodes : decodeWord d = .ok i) (st : DecState) :
    operationOf (symbolOf d) ((DecState.ofCode (stateField d)).getD st) = i := by
  rcases decodeWord_eq_ok decodes with ⟨flush, rfl⟩ | ⟨byte, at_, code, -, rfl⟩
  · rw [symbolOf, if_pos flush]; rfl
  · rw [symbolOf, if_neg (by simp [byte]), ← code, ofCode_code]; rfl

theorem step_placeWord {d : DispatchWord} {i : Instr} (decodes : decodeWord d = .ok i) (s : State) :
    ∃ u, step (placeWord d s) = exec i u ∧
      { u with st := s.st, replay := s.replay, pos := s.pos, event := s.event, inputs := s.inputs, resetPin := s.resetPin } =
        s := by
  let w : State := { s with st := (DecState.ofCode (stateField d)).getD s.st, resetPin := releasePin s.resetPin }
  obtain ⟨u, takes, frame⟩ := placeSymbol_takes (symbolOf d) w
  have released : pinNow (placeWord d s) = none := pinNow_of_releasePin (placeSymbol_resetPin (symbolOf d) w)
  have st : (placeWord d s).st = w.st := placeSymbol_st (symbolOf d) w
  refine ⟨u, ?_, congrArg (fun v : State => { v with st := s.st, resetPin := s.resetPin }) frame⟩
  rw [step_of_takes released takes, st, operationOf_symbolOf decodes]

/-- Settles O10: the placed symbol is the one taken, the pin is released, and STATE has the word's code. -/
theorem placedWordRunsNext : Obligations.PlacedWordRunsNext := by
  intro s nbits w i decodes
  have placed : s.withFetchWord nbits w = placeWord (BitVec.ofNat 13 w) s := by rw [State.withFetchWord, decodes]
  rw [placed]
  exact step_placeWord (decode_eq_ok decodes).2 s

end Sys2Proof.Machine
end

section
/-! Operations of their own: the whole next state of the rest of 40_scanner.md, 42_validator.md, 43_checksum.md and 45_control.md. -/

namespace Sys2Proof.Machine

theorem exec_scanSkip (v : U8) (s : State) : exec (.scanSkip v) s = .next { s with st := .scanningForSync } := rfl

theorem exec_trlAbort (v : U8) (s : State) : exec (.trlAbort v) s = .next (endFrame s) := rfl

theorem exec_flush (s : State) : exec .flush s = .next (endFrame s) := rfl

theorem exec_reset (cfg : U16) (s : State) :
    exec (.reset cfg) s = .next { endFrame s with maxlen := cfg, replay := [], pos := 0 } := rfl

/-- Settles O12: the other bytes fail the tests for the sync bytes, and the two operations write what they say. -/
theorem otherBytesAreDiscarded : Obligations.OtherBytesAreDiscarded := by
  refine ⟨fun v other => ?skip, exec_scanSkip, fun v notTrailer notSync => ?abort, exec_trlAbort⟩
  case skip => rw [decodeWord_dispatchWord, operationOf, if_neg other]
  case abort => rw [decodeWord_dispatchWord, operationOf, if_neg notTrailer, if_neg notSync]

/-- Settles O15: the four verdicts' next states. -/
theorem verdictEffects : Obligations.VerdictEffects := fun s =>
  ⟨exec_vTooLarge s, exec_vPoll s, fun e => exec_vWrongLen e s, exec_vAccept s⟩

/-- Settles O19: the next states of the two matching outcomes. -/
theorem matchingChecksumEffects : Obligations.MatchingChecksumEffects := fun s => ⟨exec_ckPacket s, exec_ckPoll s⟩

/-- Settles O22: FLUSH's row tests F alone, and FLUSH ends the frame. -/
theorem flushDropsTheFrame : Obligations.FlushDropsTheFrame := ⟨fun st => decodeWord_dispatchWord .flush st, exec_flush⟩

/-- Settles O23: RESET ends the frame, empties REPLAY, clears POS and loads MAXLEN. -/
theorem resetConstructsTheDecoder : Obligations.ResetConstructsTheDecoder := exec_reset

/-- Settles O17: the store at PWP is `Memory.store`, which changes an index PAY has and no other. -/
theorem payloadByteCompletesAtEveryWritePosition : Obligations.PayloadByteCompletesAtEveryWritePosition := by
  intro v s
  refine ⟨_, exec_fldPay v s, rfl, fun canonical => ⟨Memory.store_wf _ v canonical, fun a => ?_⟩⟩
  exact Memory.read_store s.pwp.toNat a v canonical

end Sys2Proof.Machine
end

section
/-! What an operation does to the byte source: it reads neither side, and puts back at most bytes that POS is taken back by
(20_memory.md R51, 44_recovery.md R166, R167). -/

namespace Sys2Proof.Machine

/-- From `s` the operation `i` comes to `t` whatever REPLAY and IN hold, with `back` put in front of REPLAY and POS taken back by as
many. -/
def PutsBack (i : Instr) (s t : State) (back : List U8) : Prop :=
  (t.pos + back.length) % posMod s.config = s.pos % posMod s.config ∧
  ∀ r l, exec i { s with replay := r, inputs := l } = .next { t with replay := back ++ r, inputs := l }

/-- Going back and then on by as many leaves the residue. -/
theorem rewindPos_pos_add (n : Nat) (s : State) :
    ((rewindPos n s).pos + n) % posMod s.config = s.pos % posMod s.config := by
  have below : n % posMod s.config ≤ posMod s.config := (Nat.mod_lt n (posMod_pos s.config)).le
  calc ((rewindPos n s).pos + n) % posMod s.config
      = (s.pos + (posMod s.config - n % posMod s.config) + n % posMod s.config) % posMod s.config := by
        rw [rewindPos_pos, Nat.mod_add_mod, ← Nat.add_mod_mod]
    _ = s.pos % posMod s.config := by rw [Nat.add_assoc, Nat.sub_add_cancel below, Nat.add_mod_right]

theorem verdict_putsBack {d : Verdict} {s t : State} (run : exec d.operation s = .next t) : PutsBack d.operation s t [] := by
  cases d <;> cases run <;> exact ⟨rfl, fun _ _ => rfl⟩

theorem ckMismatch_putsBack {s t : State} (run : exec .ckMismatch s = .next t) : PutsBack .ckMismatch s t (frameBody s) := by
  cases run
  exact ⟨rewindPos_pos_add _ _, fun _ _ => rfl⟩

theorem outcome_putsBack {o : CkOutcome} {s t : State} (run : exec o.operation s = .next t) :
    ∃ back, PutsBack o.operation s t back := by
  cases o with
  | packet | poll => cases run; exact ⟨[], rfl, fun _ _ => rfl⟩
  | mismatch => exact ⟨_, ckMismatch_putsBack run⟩

/-- Every operation but RESET, which empties REPLAY. -/
theorem exists_putsBack {i : Instr} {s t : State} (symbol : isReset i = false) (run : exec i s = .next t) :
    ∃ back, PutsBack i s t back := by
  cases i with
  | reset => cases symbol
  | fldLenhi v =>
    rw [exec_fldLenhi rfl] at run
    obtain ⟨pos, same⟩ := verdict_putsBack run
    exact ⟨[], pos, fun r l => (exec_fldLenhi rfl).trans (same r l)⟩
  | fldCkhi v =>
    rw [exec_fldCkhi rfl] at run
    obtain ⟨back, pos, same⟩ := outcome_putsBack run
    exact ⟨back, pos, fun r l => (exec_fldCkhi rfl).trans (same r l)⟩
  | ckMismatch => exact ⟨_, ckMismatch_putsBack run⟩
  | reinject => cases run; exact ⟨_, rewindPos_pos_add _ _, fun _ _ => rfl⟩
  | _ => cases run; exact ⟨[], rfl, fun _ _ => rfl⟩

/-- What a symbol's operation puts back. -/
theorem exists_putsBack_symbol {x : Symbol} {st : DecState} {s t : State} (run : exec (operationOf x st) s = .next t) :
    ∃ back, PutsBack (operationOf x st) s t back :=
  exists_putsBack (operationOf_not_reset x st) run

theorem PutsBack.next {i : Instr} {s t : State} {back : List U8} (h : PutsBack i s t back) (run : exec i s = .next t) :
    t.replay = back ++ s.replay ∧ t.inputs = s.inputs := by
  have same : t = { t with replay := back ++ s.replay, inputs := s.inputs } :=
    Host.Outcome.next.inj (run.symm.trans (h.2 s.replay s.inputs))
  exact ⟨by rw [same], by rw [same]⟩

theorem exec_inputs {i : Instr} {s t : State} (run : exec i s = .next t) : t.inputs = s.inputs := by
  cases reset : isReset i with
  | false => obtain ⟨_, puts⟩ := exists_putsBack reset run; exact (puts.next run).2
  | true => cases i <;> cases reset; cases run; rfl

/-- Settles O9: with REPLAY not empty the symbol taken is its front, and no operation writes IN. -/
theorem replayStallsTheInput : Obligations.ReplayStallsTheInput := by
  intro s t pending run
  cases step_case run with
  | reset cfg _ run => exact (exec_inputs run).trans (beginStep_inputs s)
  | hold _ empty => exact absurd empty pending
  | taken x u _ takes run =>
    rcases takes.source with ⟨_, _, _, inputs⟩ | ⟨empty, _, _⟩
    · exact (exec_inputs run).trans inputs
    · exact absurd empty pending

/-! ### The wiring -/

theorem exec_verdict_config {d : Verdict} {s t : State} (run : exec d.operation s = .next t) : t.config = s.config := by
  cases d <;> cases run <;> rfl

theorem exec_outcome_config {o : CkOutcome} {s t : State} (run : exec o.operation s = .next t) : t.config = s.config := by
  cases o <;> cases run <;> rfl

theorem exec_config {i : Instr} {s t : State} (run : exec i s = .next t) : t.config = s.config := by
  cases i with
  | fldLenhi v =>
    rw [exec_fldLenhi rfl] at run
    simpa using exec_verdict_config run
  | fldCkhi v =>
    rw [exec_fldCkhi rfl] at run
    simpa using exec_outcome_config run
  | _ => cases run; rfl

theorem step_config {s t : State} (run : step s = .next t) : t.config = s.config := by
  cases step_case run with
  | reset cfg _ run => exact (exec_config run).trans (beginStep_config s)
  | hold _ _ _ same => rw [same]; rfl
  | taken x u _ takes run => exact (exec_config run).trans takes.config

theorem run_succ_of_next (M : Host.Core) {k : Nat} {s u : M.State} (first : M.step s = .next u) :
    M.run (k + 1) s = M.run k u := by
  rw [run_succ, first]

theorem core_run_succ {k : Nat} {s t : State} :
    Host.Core.run core (k + 1) s = .next t ↔ ∃ u, step s = .next u ∧ Host.Core.run core k u = .next t := by
  obtain ⟨u, first⟩ := step_next s
  have unfolded : Host.Core.run core (k + 1) s = Host.Core.run core k u := run_succ_of_next core first
  rw [unfolded, first]
  exact ⟨fun run => ⟨u, rfl, run⟩, fun ⟨v, same, run⟩ => by cases same; exact run⟩

/-- What every step keeps, every run keeps. -/
theorem run_keeps {P : State → Prop} (keeps : ∀ s t, P s → step s = .next t → P t) {k : Nat} :
    ∀ {s t : State}, P s → Host.Core.run core k s = .next t → P t := by
  induction k with
  | zero => intro s t holds run; cases run; exact holds
  | succ k ih =>
    intro s t holds run
    obtain ⟨u, first, rest⟩ := core_run_succ.mp run
    exact ih (keeps s u holds first) rest

/-- Settles O28: no operation writes the wiring, so every run keeps it, and the lookup reads nothing else. -/
theorem wiringNeverChanges : Obligations.WiringNeverChanges := by
  refine ⟨fun s t i run => exec_config run, fun k s t run c i => ?lookup⟩
  case lookup =>
    have kept : t.config = s.config :=
      run_keeps (P := fun u => u.config = s.config) (fun _ _ same run => (step_config run).trans same) rfl run
    rw [kept]

/-! ### The stream position -/

/-- Settles O30: taking a byte adds one to POS and takes it from REPLAY or from IN, and what an operation puts back it takes POS back by. -/
theorem positionWithReplayCountsTheInput : Obligations.PositionWithReplayCountsTheInput := by
  intro s t released run
  cases step_case run with
  | reset cfg asserted => cases asserted.symm.trans released
  | hold _ _ noInput same => rw [same]; simp [noInput]
  | taken x u _ takes run =>
    obtain ⟨back, puts⟩ := exists_putsBack_symbol run
    have kept : (t.pos + t.replay.length) % posMod s.config = (u.pos + u.replay.length) % posMod s.config := by
      rw [(puts.next run).1, List.length_append, ← Nat.add_assoc, ← Nat.mod_add_mod, ← takes.config, puts.1, Nat.mod_add_mod]
    refine kept.trans ?_
    change _ = _ % posMod s.config
    cases x with
    | flush =>
      rcases takes.source with ⟨_, noFlush, _⟩ | ⟨empty, after, front⟩
      · cases noFlush
      · simp [takes.flush_pos, empty, after, front]
    | byte v =>
      rw [takes.byte_pos, Nat.mod_add_mod]
      rcases takes.source with ⟨_, _, front, _⟩ | ⟨empty, after, front⟩
      · rw [front, List.length_cons, Nat.add_right_comm]; simp [Nat.add_assoc]
      · simp [empty, after, front]

/-! ### The payload buffer -/

/-- FLD.PAY, the one operation that writes PAY (20_memory.md R52). -/
def writesPay : Instr → Bool
  | .fldPay _ => true
  | _ => false

theorem exec_verdict_pay {d : Verdict} {s t : State} (run : exec d.operation s = .next t) : t.pay = s.pay := by
  cases d <;> cases run <;> rfl

theorem exec_outcome_pay {o : CkOutcome} {s t : State} (run : exec o.operation s = .next t) : t.pay = s.pay := by
  cases o <;> cases run <;> rfl

theorem exec_pay {i : Instr} {s t : State} (other : writesPay i = false) (run : exec i s = .next t) : t.pay = s.pay := by
  cases i with
  | fldPay => cases other
  | fldLenhi v =>
    rw [exec_fldLenhi rfl] at run
    simpa using exec_verdict_pay run
  | fldCkhi v =>
    rw [exec_fldCkhi rfl] at run
    simpa using exec_outcome_pay run
  | _ => cases run; rfl

/-- FLD.PAY is what a byte selects in AccumulatingPayload, and no symbol elsewhere (30_encoding.md R90). -/
theorem operationOf_writesPay {x : Symbol} {st : DecState} (writes : writesPay (operationOf x st) = true) :
    st = .accumulatingPayload ∧ ∃ v, operationOf x st = .fldPay v := by
  cases x with
  | flush => cases writes
  | byte v =>
    cases st with
    | accumulatingPayload => exact ⟨rfl, v, rfl⟩
    | scanningForSync | expectSyncTrailer => simp only [operationOf] at writes; split_ifs at writes <;> cases writes
    | _ => cases writes

/-- Settles O29: FLD.PAY is selected while filling only, and its store leaves every index but PWP. -/
theorem payloadBufferWrittenOnlyAtWritePosition : Obligations.PayloadBufferWrittenOnlyAtWritePosition := by
  intro s t a run changed
  cases step_case run with
  | reset cfg _ run => exact absurd (by rw [exec_pay rfl run]; rfl) changed
  | hold _ _ _ same => exact absurd (by rw [same]; rfl) changed
  | taken x u _ takes run =>
    cases writes : writesPay (operationOf x s.st) with
    | false => exact absurd (by rw [exec_pay writes run, takes.pay]) changed
    | true =>
      obtain ⟨filling, v, selected⟩ := operationOf_writesPay writes
      refine ⟨filling, by_contra fun elsewhere => changed ?_⟩
      rw [selected, exec_fldPay, takes.pwp, takes.pay] at run
      cases run
      exact Memory.read_store_other v elsewhere

end Sys2Proof.Machine
end

section
/-! The replay buffer as input put back (44_recovery.md R166, R176), and the input in chunks (20_memory.md R64). -/

namespace Sys2Proof.Machine

/-- With the replay standing in the input the same symbol is taken, and what is left is the same, rewound. -/
theorem Takes.rewound {s u : State} {x : Symbol} (takes : Takes s x u) : Takes (rewound s) x (rewound u) := by
  cases takes with
  | @replay v rest front =>
    refine Takes.input rfl ?_
    simp [Machine.rewound, front]
  | @input _ rest empty front =>
    have stays : Machine.rewound (countSymbol x { beginStep s with inputs := rest }) =
        countSymbol x { beginStep (Machine.rewound s) with inputs := rest } := by
      cases x <;> simp [Machine.rewound, empty, countSymbol, advancePos, beginStep]
    rw [stays]
    refine Takes.input rfl ?_
    simp [Machine.rewound, empty, front]

theorem PutsBack.rewound {i : Instr} {s t : State} {back : List U8} (puts : PutsBack i s t back) (run : exec i s = .next t) :
    ∃ t', exec i (rewound s) = .next t' ∧ rewound t' = rewound t := by
  obtain ⟨replay, inputs⟩ := puts.next run
  refine ⟨_, puts.2 [] (s.replay.map Symbol.byte ++ s.inputs), ?_⟩
  simp [Machine.rewound, replay, inputs]

/-- Settles O45: the rewound machine takes the same symbol, and what the operation puts back goes in front of whatever is left. -/
theorem replayBufferIsRewoundInput : Obligations.ReplayBufferIsRewoundInput := by
  intro s t released run
  cases step_case run with
  | reset cfg asserted => cases asserted.symm.trans released
  | hold _ noReplay noInput same =>
    refine ⟨beginStep (rewound s), step_quiet released rfl ?_, by rw [same]; rfl⟩
    simp [rewound, noReplay, noInput]
  | taken x u _ takes run =>
    obtain ⟨back, puts⟩ := exists_putsBack_symbol run
    obtain ⟨t', run', same⟩ := puts.rewound run
    exact ⟨t', (step_of_takes (s := rewound s) released takes.rewound).trans run', same⟩

/-! ### Chunks -/

/-- More input behind what there is. -/
def withMore (ys : List Symbol) (s : State) : State := { s with inputs := s.inputs ++ ys }

theorem exec_withMore {i : Instr} {s t : State} (ys : List Symbol) (run : exec i s = .next t) :
    exec i (withMore ys s) = .next (withMore ys t) := by
  rw [withMore, exec_with_inputs, run, withMore, exec_inputs run]

theorem Takes.withMore {s u : State} {x : Symbol} (takes : Takes s x u) (ys : List Symbol) :
    Takes (withMore ys s) x (withMore ys u) := by
  cases takes with
  | replay front => exact Takes.replay front
  | @input _ rest empty front =>
    have stays : Machine.withMore ys (countSymbol x { beginStep s with inputs := rest }) =
        countSymbol x { beginStep (Machine.withMore ys s) with inputs := rest ++ ys } := by cases x <;> rfl
    rw [stays]
    exact Takes.input empty (by rw [Machine.withMore, front]; rfl)

/-- A step that is not a hold for want of a symbol does not see what stands behind the input. -/
theorem step_withMore {s t : State} (ys : List Symbol) (busy : quiet s = false) (run : step s = .next t) :
    step (withMore ys s) = .next (withMore ys t) := by
  cases step_case run with
  | reset cfg asserted run => exact (step_pin (s := withMore ys s) asserted).trans (exec_withMore ys run)
  | hold _ noReplay noInput => simp [quiet, noReplay, noInput] at busy
  | taken x u released takes run =>
    exact (step_of_takes (s := withMore ys s) released (takes.withMore ys)).trans (exec_withMore ys run)

/-- A run that comes to rest no earlier than its end does the same with more input behind. -/
theorem runEvents_withMore {k : Nat} (ys : List Symbol) : ∀ {s t : State} {es : List Event},
    runEvents k s = some (t, es) → (∀ j r ds, j < k → runEvents j s = some (r, ds) → quiet r = false) →
    runEvents k (withMore ys s) = some (withMore ys t, es) := by
  induction k with
  | zero => intro s t es run _; cases run; rfl
  | succ k ih =>
    intro s t es run busy
    obtain ⟨u, fs, first, rest, rfl⟩ := runEvents_succ.mp run
    have later : ∀ j r ds, j < k → runEvents j u = some (r, ds) → quiet r = false := fun j r ds less run' =>
      busy (j + 1) r _ (Nat.succ_lt_succ less) (runEvents_succ.mpr ⟨u, ds, first, run', rfl⟩)
    have now : quiet s = false := busy 0 s [] (Nat.succ_pos k) rfl
    exact runEvents_succ.mpr ⟨withMore ys u, fs, step_withMore ys now first, ih rest later, rfl⟩

/-- Settles O43: until it is quiet the block does not see the second chunk, and then the second chunk is all its input. -/
theorem chunkingDoesNotMatter : Obligations.ChunkingDoesNotMatter := by
  intro s t u xs ys k m es fs first busy rest second
  have joined := runEvents_withMore ys first busy
  have empty : t.inputs = [] := List.isEmpty_iff.mp (Bool.and_eq_true_iff.mp rest).2
  have fed : withMore ys t = { t with inputs := ys } := by rw [withMore, empty]; rfl
  exact runEvents_add joined (fed ▸ second)

end Sys2Proof.Machine
end

section
/-! Events (60_exceptions.md R191 to R201): which operation emits which, and the registers it leaves. -/

namespace Sys2Proof.Machine

/-- What a verdict reports on the state with LEN complete (42_validator.md R137 to R140). -/
def Verdict.report (w : State) : Verdict → Option Event
  | .tooLarge => some (.payloadTooLarge (snap w) w.maxlen)
  | .wrongLen e => some (.wrongPayloadLength (snap w) e)
  | .poll | .accept => none

/-- What an outcome emits on the state with RXCK complete (43_checksum.md R155 to R157). -/
def CkOutcome.report (w : State) : CkOutcome → Event
  | .packet => .packet w.cls w.id (Memory.prefixBytes w.pay w.len.toNat)
  | .poll => .pollingMessage (snap w)
  | .mismatch => .failedChecksum (snap w) (computedChecksum w)

theorem exec_verdict_event {d : Verdict} {s t : State} (run : exec d.operation s = .next t) (silent : s.event = none) :
    t.event = d.report s := by
  cases d with
  | tooLarge | wrongLen => cases run; rfl
  | poll | accept => cases run; exact silent

theorem exec_outcome_event {o : CkOutcome} {s t : State} (run : exec o.operation s = .next t) : t.event = some (o.report s) := by
  cases o <;> cases run <;> rfl

/-- FLD.LENHI and FLD.CKHI are the operations a symbol selects that can emit. -/
def emitsAt (st : DecState) : Bool := st = .expectLengthHigh ∨ st = .expectChecksumHigh

theorem exec_selected_silent {x : Symbol} {st : DecState} {s t : State} (run : exec (operationOf x st) s = .next t)
    (silent : s.event = none) (other : emitsAt st = false) : t.event = none := by
  cases x with
  | flush => cases run; exact silent
  | byte v =>
    cases st with
    | expectLengthHigh | expectChecksumHigh => cases other
    | scanningForSync | expectSyncTrailer => simp only [operationOf] at run; split_ifs at run <;> cases run <;> exact silent
    | _ => cases run; exact silent

/-- Where an event of a step comes from: a verdict's report on the completed LEN, or an outcome's on the completed RXCK. -/
theorem step_event {s t : State} {e : Event} (run : step s = .next t) (emitted : t.event = some e) :
    ∃ v u, Takes s (.byte v) u ∧
      ((s.st = .expectLengthHigh ∧ ∃ w, w = acc v { u with len := setHi u.len v } ∧ (verdict w).report w = some e) ∨
       (s.st = .expectChecksumHigh ∧ ∃ w, w = { u with rxck := setHi u.rxck v } ∧ (ckOutcome w).report w = e ∧
          exec (ckOutcome w).operation w = .next t)) := by
  cases step_case run with
  | reset cfg _ run => cases run; cases emitted
  | hold _ _ _ same => rw [same] at emitted; cases emitted
  | taken x u _ takes run =>
    cases emits : emitsAt s.st with
    | false => cases (exec_selected_silent run takes.event emits).symm.trans emitted
    | true =>
      cases x with
      | flush => cases run; cases takes.event.symm.trans emitted
      | byte v =>
        refine ⟨v, u, takes, ?_⟩
        rcases of_decide_eq_true emits with st | st
        · rw [st] at run
          rw [exec_operationOf_lengthHigh rfl] at run
          exact .inl ⟨st, _, rfl, (exec_verdict_event run takes.event).symm.trans emitted⟩
        · rw [st] at run
          rw [exec_operationOf_checksumHigh rfl] at run
          exact .inr ⟨st, _, rfl, Option.some.inj ((exec_outcome_event run).symm.trans emitted), run⟩

/-- A byte taken in ExpectChecksumHigh is the last of its frame, which emits (60_exceptions.md R199). -/
theorem step_checksumHigh_emits {s t : State} {v : U8} (released : pinNow s = none) (last : s.st = .expectChecksumHigh)
    (next : s.replay.head? = some v ∨ s.replay = [] ∧ s.inputs.head? = some (.byte v)) (run : step s = .next t) :
    t.event ≠ none := by
  obtain ⟨u, takes⟩ : ∃ u, Takes s (.byte v) u := by
    rcases next with front | ⟨empty, front⟩
    · obtain ⟨rest, front⟩ := List.head?_eq_some_iff.mp front
      exact ⟨_, .replay front⟩
    · obtain ⟨rest, front⟩ := List.head?_eq_some_iff.mp front
      exact ⟨_, .input empty front⟩
  rw [step_of_takes released takes, last, exec_operationOf_checksumHigh rfl] at run
  rw [exec_outcome_event run]
  exact Option.some_ne_none _

/-- Settles O24: verdicts report in ExpectLengthHigh, outcomes in ExpectChecksumHigh, and every outcome reports. -/
theorem onlyLengthHighAndChecksumHighEmit : Obligations.OnlyLengthHighAndChecksumHighEmit := by
  refine ⟨fun s t e run emitted => ?origin, fun s t v released last next run => step_checksumHigh_emits released last next run⟩
  case origin =>
    obtain ⟨v, u, -, ⟨st, w, -, reported⟩ | ⟨st, w, -, reported, -⟩⟩ := step_event run emitted
    · cases d : verdict w <;> rw [d] at reported <;> cases reported <;> exact st
    · cases o : ckOutcome w <;> rw [o] at reported <;> cases reported <;> exact st

/-! ### The return to ScanningForSync -/

/-- The frame goes on without an event, or it has ended with its registers clear (60_exceptions.md R201). -/
def ContinuesOrEnds (s t : State) : Prop :=
  (t.event = none ∧ (t.st = .scanningForSync → s.st = .scanningForSync)) ∨ (t.st = .scanningForSync ∧ FrameClear t)

theorem exec_verdict_continuesOrEnds {d : Verdict} {s t : State} (run : exec d.operation s = .next t)
    (silent : s.event = none) : ContinuesOrEnds s t := by
  cases d with
  | tooLarge | wrongLen => cases run; exact .inr ⟨rfl, raise_clear _ _⟩
  | poll | accept => cases run; exact .inl ⟨silent, nofun⟩

theorem exec_outcome_ends {o : CkOutcome} {s t : State} (run : exec o.operation s = .next t) :
    t.st = .scanningForSync ∧ FrameClear t := by
  cases o <;> cases run <;> exact ⟨rfl, raise_clear _ _⟩

theorem exec_selected_continuesOrEnds {x : Symbol} {s t : State} (run : exec (operationOf x s.st) s = .next t)
    (silent : s.event = none) : ContinuesOrEnds s t := by
  cases x with
  | flush => cases run; exact .inr ⟨rfl, endFrame_clear s⟩
  | byte v =>
    cases st : s.st with
    | expectLengthHigh =>
      rw [st, exec_operationOf_lengthHigh rfl] at run
      exact exec_verdict_continuesOrEnds (s := acc v { s with len := setHi s.len v }) run silent
    | expectChecksumHigh =>
      rw [st, exec_operationOf_checksumHigh rfl] at run
      exact .inr (exec_outcome_ends run)
    | scanningForSync =>
      rw [st] at run
      simp only [operationOf] at run
      split_ifs at run <;> cases run <;> exact .inl ⟨silent, fun _ => st⟩
    | expectSyncTrailer =>
      rw [st] at run
      simp only [operationOf] at run
      split_ifs at run <;> cases run
      · exact .inl ⟨silent, nofun⟩
      · exact .inl ⟨silent, nofun⟩
      · exact .inr ⟨rfl, endFrame_clear s⟩
    | accumulatingPayload =>
      rw [st, exec_operationOf_payload] at run
      cases run
      exact .inl ⟨silent, fun scanning => by dsimp only at scanning; split_ifs at scanning⟩
    | expectClass | expectId | expectLengthLow | expectChecksumLow => rw [st] at run; cases run; exact .inl ⟨silent, nofun⟩

theorem step_continuesOrEnds {s t : State} (run : step s = .next t) : ContinuesOrEnds s t := by
  cases step_case run with
  | reset cfg _ run =>
    obtain ⟨clear, scanning, -⟩ := exec_reset_discards run
    exact .inr ⟨scanning, clear⟩
  | hold _ _ _ same => subst same; exact .inl ⟨rfl, fun scanning => scanning⟩
  | taken x u _ takes run =>
    rw [← takes.st] at run
    have := exec_selected_continuesOrEnds run takes.event
    rwa [ContinuesOrEnds, takes.st] at this

/-- Settles O25: a step that emits, or comes to ScanningForSync from elsewhere, has ended the frame. -/
theorem everyReturnToScanningClearsTheFrame : Obligations.EveryReturnToScanningClearsTheFrame := by
  intro s t run
  rcases step_continuesOrEnds run with ⟨silent, stays⟩ | ended
  · exact ⟨fun emitted => absurd silent emitted, fun away scanning => absurd (stays scanning) away⟩
  · exact ⟨fun _ => ended, fun _ _ => ended.2⟩

end Sys2Proof.Machine
end

section
/-! The invariant (10_state.md R34, R35, R37, R43, 43_checksum.md R152, 42_validator.md R143, 44_recovery.md R170): what it says of the
registers in each STATE, and that every step keeps it. -/

namespace Sys2Proof.Machine

/-! ### The registers STATE by STATE -/

/-- No payload has been allocated, and no checksum byte received (10_state.md R34, R35). -/
abbrev Unallocated (s : State) : Prop := s.rxck = 0 ∧ s.pwp = 0 ∧ s.payv = false

/-- The payload is present and of a length the validator has passed (R35, 42_validator.md R143). -/
abbrev Allocated (s : State) : Prop := s.payv = true ∧ s.len.toNat ≤ lmax s.maxlen

/-- What the invariant says of the frame registers in each STATE, the sums apart. -/
def Registers (s : State) : Prop :=
  match s.st with
  | .scanningForSync | .expectSyncTrailer | .expectClass => FrameClear s
  | .expectId => (s.id = 0 ∧ s.len = 0) ∧ Unallocated s
  | .expectLengthLow => s.len = 0 ∧ Unallocated s
  | .expectLengthHigh => hi s.len = 0 ∧ Unallocated s
  | .accumulatingPayload => s.pwp.toNat < s.len.toNat ∧ s.rxck = 0 ∧ Allocated s
  | .expectChecksumLow => s.pwp = s.len ∧ s.rxck = 0 ∧ Allocated s
  | .expectChecksumHigh => s.pwp = s.len ∧ hi s.rxck = 0 ∧ Allocated s

theorem registers_of_clear {s : State} (start : s.st.startsClear = true) (clear : FrameClear s) : Registers s := by
  cases st : s.st <;> simp only [st, DecState.startsClear, Bool.false_eq_true] at start <;> simpa only [Registers, st]

theorem Invariant.unallocated {s : State} (inv : Invariant s) (before : s.st.holdsPayload = false) : Unallocated s :=
  ⟨inv.rxckNext (fun last => by rw [last] at before; cases before), inv.pwpIdle before, inv.payvIff.trans before⟩

theorem Invariant.allocated {s : State} (inv : Invariant s) (holds : s.st.holdsPayload = true) : Allocated s :=
  ⟨inv.payvIff.trans holds, inv.lenBound holds⟩

theorem Invariant.registers {s : State} (inv : Invariant s) : Registers s := by
  unfold Registers
  cases st : s.st with
  | scanningForSync | expectSyncTrailer | expectClass => exact inv.frameClear (by rw [st]; rfl)
  | expectId => exact ⟨inv.idNext st, inv.unallocated (by rw [st]; rfl)⟩
  | expectLengthLow => exact ⟨inv.lenNext st, inv.unallocated (by rw [st]; rfl)⟩
  | expectLengthHigh => exact ⟨inv.lenHighNext st, inv.unallocated (by rw [st]; rfl)⟩
  | accumulatingPayload => exact ⟨inv.pwpFilling st, inv.rxckNext (st ▸ nofun), inv.allocated (by rw [st]; rfl)⟩
  | expectChecksumLow => exact ⟨inv.pwpDone (.inl st), inv.rxckNext (st ▸ nofun), inv.allocated (by rw [st]; rfl)⟩
  | expectChecksumHigh => exact ⟨inv.pwpDone (.inr st), inv.rxckHighNext st, inv.allocated (by rw [st]; rfl)⟩

theorem Registers.unallocated {s : State} (registers : Registers s) (before : s.st.holdsPayload = false) : Unallocated s := by
  unfold Registers at registers
  cases st : s.st with
  | scanningForSync | expectSyncTrailer | expectClass =>
    rw [st] at registers
    obtain ⟨-, -, -, rxck, pwp, payv, -, -⟩ := registers
    exact ⟨rxck, pwp, payv⟩
  | expectId | expectLengthLow | expectLengthHigh => rw [st] at registers; exact registers.2
  | _ => rw [st] at before; cases before

theorem Registers.allocated {s : State} (registers : Registers s) (holds : s.st.holdsPayload = true) : Allocated s := by
  unfold Registers at registers
  cases st : s.st with
  | accumulatingPayload | expectChecksumLow | expectChecksumHigh =>
    rw [st] at registers
    obtain ⟨-, -, allocated⟩ := registers
    exact allocated
  | _ => rw [st] at holds; cases holds

/-- No checksum byte has been received before ExpectChecksumHigh. -/
theorem Registers.rxck {s : State} (registers : Registers s) (other : s.st ≠ .expectChecksumHigh) : s.rxck = 0 := by
  cases holds : s.st.holdsPayload with
  | false => exact (registers.unallocated holds).1
  | true =>
    unfold Registers at registers
    cases st : s.st with
    | accumulatingPayload | expectChecksumLow => rw [st] at registers; obtain ⟨-, rxck, -⟩ := registers; exact rxck
    | expectChecksumHigh => exact absurd st other
    | _ => rw [st] at holds; cases holds

theorem Registers.clear {s : State} (registers : Registers s) (start : s.st.startsClear = true) : FrameClear s := by
  unfold Registers at registers
  cases st : s.st with
  | scanningForSync | expectSyncTrailer | expectClass => rw [st] at registers; exact registers
  | _ => rw [st] at start; cases start

/-- The invariant from its registers' part, the sums, and what it says of PAY, POS and REPLAY. -/
theorem invariant_of_registers {s : State} (payWf : Memory.wf s.pay) (posBound : s.pos < posMod s.config)
    (registers : Registers s) (sums : (s.cka, s.ckb) = ck (coveredSoFar s))
    (replayFits : s.replay ≠ [] → (bodySoFar s).length + s.replay.length ≤ replayCap s.maxlen) : Invariant s where
  payWf := payWf
  posBound := posBound
  frameClear := registers.clear
  idNext st := by rw [Registers, st] at registers; exact registers.1
  lenNext st := by rw [Registers, st] at registers; exact registers.1
  lenHighNext st := by rw [Registers, st] at registers; exact registers.1
  rxckNext := registers.rxck
  rxckHighNext st := by rw [Registers, st] at registers; exact registers.2.1
  pwpIdle before := (registers.unallocated before).2.1
  pwpFilling st := by rw [Registers, st] at registers; exact registers.1
  pwpDone done := by rcases done with st | st <;> rw [Registers, st] at registers <;> exact registers.1
  payvIff := by
    cases holds : s.st.holdsPayload with
    | false => exact (registers.unallocated holds).2.2
    | true => exact (registers.allocated holds).1
  lenBound holds := (registers.allocated holds).2
  sums := sums
  replayFits := replayFits

theorem coveredSoFar_of_startsClear {s : State} (start : s.st.startsClear = true) : coveredSoFar s = [] := by
  cases st : s.st <;> simp only [st, DecState.startsClear, Bool.false_eq_true] at start <;> simp only [coveredSoFar, st]

theorem bodySoFar_eq_coveredSoFar {s : State} (other : s.st ≠ .expectChecksumHigh) : bodySoFar s = coveredSoFar s := by
  rw [bodySoFar]
  split
  · exact absurd ‹_› other
  · rfl

theorem bodySoFar_of_startsClear {s : State} (start : s.st.startsClear = true) : bodySoFar s = [] := by
  rw [bodySoFar_eq_coveredSoFar (fun st => by rw [st] at start; cases start), coveredSoFar_of_startsClear start]

/-- With the frame registers clear, PAY canonical and the rest in bounds the invariant holds: the sums of no byte are 0 (R159). -/
theorem invariant_of_clear {s : State} (payWf : Memory.wf s.pay) (posBound : s.pos < posMod s.config)
    (start : s.st.startsClear = true) (clear : FrameClear s)
    (replayFits : s.replay ≠ [] → s.replay.length ≤ replayCap s.maxlen) : Invariant s := by
  refine invariant_of_registers payWf posBound (registers_of_clear start clear) ?_ ?_
  · obtain ⟨-, -, -, -, -, -, cka, ckb⟩ := clear
    rw [coveredSoFar_of_startsClear start, cka, ckb]; rfl
  · rw [bodySoFar_of_startsClear start]
    simpa using replayFits

/-- Settles O34: the registers are clear at release, POS is 0 and REPLAY empty. -/
theorem releaseMeetsTheInvariant : Obligations.ReleaseMeetsTheInvariant := by
  have released (c maxlen pay inputs pin) (payWf : Memory.wf pay) : Invariant (State.started c maxlen pay inputs pin) :=
    invariant_of_clear payWf (posMod_pos c) rfl ⟨rfl, rfl, rfl, rfl, rfl, rfl, rfl, rfl⟩ fun pending => absurd rfl pending
  exact ⟨released _ _ _ [] [] reset_pay_wf, released⟩

/-! ### One byte of a body -/

theorem verdict_registers {d : Verdict} {w t : State} (decided : verdict w = d) (fresh : Unallocated w)
    (run : exec d.operation w = .next t) : Registers t := by
  obtain ⟨rxck, pwp, -⟩ := fresh
  have fits (passed : d ≠ .tooLarge) : w.len.toNat ≤ lmax w.maxlen := by
    refine len_le_lmax (Bool.eq_false_iff.mpr fun large => passed ?_)
    rw [← decided, verdict, if_pos large]
  cases d with
  | tooLarge | wrongLen => cases run; exact raise_clear _ _
  | poll => cases run; exact ⟨(len_of_poll decided).symm, rxck, rfl, fits nofun⟩
  | accept =>
    have nonzero : w.len ≠ 0 := fun zero => by
      rw [verdict] at decided
      split_ifs at decided with large poll
      exact poll ((isPoll_iff w).mpr zero)
    cases run
    exact ⟨Nat.pos_of_ne_zero (mt (BitVec.eq_of_toNat_eq (y := 0)) nonzero), rxck, rfl, fits nofun⟩

/-- Whatever the byte, a body operation leaves the registers as the STATE it goes to wants them. -/
theorem exec_body_registers {v : U8} {s t : State} (registers : Registers s) (body : s.st.inBody = true)
    (run : exec (operationOf (.byte v) s.st) s = .next t) : Registers t := by
  unfold Registers at registers
  cases st : s.st with
  | scanningForSync | expectSyncTrailer => rw [st] at body; cases body
  | expectClass =>
    rw [st] at run registers
    cases run
    obtain ⟨-, id, len, rxck, pwp, payv, -, -⟩ := registers
    exact ⟨⟨id, len⟩, rxck, pwp, payv⟩
  | expectId =>
    rw [st] at run registers
    cases run
    obtain ⟨⟨-, len⟩, fresh⟩ := registers
    exact ⟨len, fresh⟩
  | expectLengthLow =>
    rw [st] at run registers
    cases run
    obtain ⟨len, fresh⟩ := registers
    exact ⟨by simp [len], fresh⟩
  | expectLengthHigh =>
    rw [st] at run registers
    rw [exec_operationOf_lengthHigh rfl] at run
    obtain ⟨-, fresh⟩ := registers
    exact verdict_registers (w := acc v { s with len := setHi s.len v }) rfl fresh run
  | accumulatingPayload =>
    rw [st] at run registers
    rw [exec_operationOf_payload] at run
    obtain ⟨unfilled, rxck, allocated⟩ := registers
    have next := toNat_pwp_succ unfilled
    cases run
    by_cases last : s.pwp.toNat + 1 = s.len.toNat
    · simp only [Registers, if_pos last]
      exact ⟨BitVec.eq_of_toNat_eq (next.trans last), rxck, allocated⟩
    · simp only [Registers, if_neg last]
      exact ⟨next ▸ Nat.lt_of_le_of_ne unfilled last, rxck, allocated⟩
  | expectChecksumLow =>
    rw [st] at run registers
    cases run
    obtain ⟨complete, rxck, allocated⟩ := registers
    exact ⟨complete, by simp [rxck], allocated⟩
  | expectChecksumHigh =>
    rw [st] at run
    rw [exec_operationOf_checksumHigh rfl] at run
    obtain ⟨scanning, clear⟩ := exec_outcome_ends run
    exact registers_of_clear (by rw [scanning]; rfl) clear

theorem exec_verdict_sums {d : Verdict} {w t : State} (run : exec d.operation w = .next t) (body : t.st.inBody = true) :
    t.st ≠ .expectChecksumHigh ∧ (t.cka, t.ckb) = (w.cka, w.ckb) := by
  cases d with
  | tooLarge | wrongLen => cases run; cases body
  | poll | accept => cases run; exact ⟨nofun, rfl⟩

/-- A body operation that stays in the frame takes its byte into the sums, but for the checksum's own (43_checksum.md R151). -/
theorem exec_body_sums {v : U8} {s t : State} (body : s.st.inBody = true) (stays : t.st.inBody = true)
    (run : exec (operationOf (.byte v) s.st) s = .next t) :
    t.st ≠ .expectChecksumHigh ∧ s.st ≠ .expectChecksumHigh ∧ (t.cka, t.ckb) = accStep (s.cka, s.ckb) v ∨
    t.st = .expectChecksumHigh ∧ (t.cka, t.ckb) = (s.cka, s.ckb) ∧ coveredSoFar t = coveredSoFar s := by
  cases st : s.st with
  | scanningForSync | expectSyncTrailer => rw [st] at body; cases body
  | expectClass | expectId | expectLengthLow => rw [st] at run; cases run; exact .inl ⟨nofun, nofun, rfl⟩
  | expectLengthHigh =>
    rw [st, exec_operationOf_lengthHigh rfl] at run
    obtain ⟨notHigh, sums⟩ := exec_verdict_sums run stays
    exact .inl ⟨notHigh, nofun, sums⟩
  | accumulatingPayload =>
    rw [st] at run
    cases run
    exact .inl ⟨by dsimp [acc]; split_ifs <;> nofun, nofun, rfl⟩
  | expectChecksumLow =>
    rw [st] at run
    cases run
    exact .inr ⟨rfl, rfl, by simp only [coveredSoFar, st, headerBytes]⟩
  | expectChecksumHigh =>
    rw [st, exec_operationOf_checksumHigh rfl] at run
    rw [(exec_outcome_ends run).1] at stays
    cases stays

/-! ### Taking a symbol keeps what the invariant says of the registers -/

theorem Takes.registers {s u : State} {x : Symbol} (takes : Takes s x u) (registers : Registers s) : Registers u := by
  cases takes with
  | replay => exact registers
  | input => cases x <;> exact registers

theorem Takes.coveredSoFar {s u : State} {x : Symbol} (takes : Takes s x u) : coveredSoFar u = coveredSoFar s := by
  cases takes with
  | replay => rfl
  | input => cases x <;> rfl

/-- What is left of REPLAY after a byte has been taken, with that byte and the body before it, still fits (44_recovery.md R170). -/
theorem Takes.replayFits {s u : State} {v : U8} (takes : Takes s (.byte v) u) (inv : Invariant s) (pending : u.replay ≠ []) :
    (bodySoFar s).length + 1 + u.replay.length ≤ replayCap s.maxlen := by
  rcases takes.source with ⟨_, _, front, _⟩ | ⟨_, empty, _⟩
  · have fits := inv.replayFits (by rw [front]; exact List.cons_ne_nil _ _)
    rw [front, List.length_cons] at fits
    omega
  · exact absurd empty pending

theorem exec_payWf {i : Instr} {s t : State} (payWf : Memory.wf s.pay) (run : exec i s = .next t) : Memory.wf t.pay := by
  cases writes : writesPay i with
  | false => rw [exec_pay writes run]; exact payWf
  | true => cases i <;> cases writes; cases run; exact Memory.store_wf _ _ payWf

theorem Takes.byte_posBound {s u : State} {v : U8} (takes : Takes s (.byte v) u) : u.pos < posMod s.config := by
  rw [takes.byte_pos]
  exact Nat.mod_lt _ (posMod_pos _)

/-! ### Every step keeps it -/

theorem body_byte_invariant {s u t : State} {v : U8} (inv : Invariant s) (body : s.st.inBody = true)
    (takes : Takes s (.byte v) u) (run : exec (operationOf (.byte v) s.st) u = .next t) : Invariant t := by
  have payWf : Memory.wf t.pay := exec_payWf (takes.pay ▸ inv.payWf) run
  obtain ⟨⟨maxlen, config, -, -⟩, outcome⟩ := body_byte inv body takes.frame takes.event run
  rcases outcome with ⟨stays, grown, replay, pos, -, -⟩ | ⟨scanning, clear, -, replay, pos, short⟩ |
    ⟨scanning, clear, -, replay, pos⟩
  · have run' : exec (operationOf (.byte v) u.st) u = .next t := takes.st ▸ run
    have body' : u.st.inBody = true := takes.st ▸ body
    refine invariant_of_registers payWf ?pos (exec_body_registers (takes.registers inv.registers) body' run') ?sums ?fits
    case pos => rw [pos, config]; exact takes.byte_posBound
    case sums =>
      rcases exec_body_sums body' stays run' with ⟨notLast, notHigh, sums⟩ | ⟨_, sums, covered⟩
      · rw [takes.st] at notHigh
        rw [sums, takes.cka, takes.ckb, inv.sums, ← ck_append_one, ← bodySoFar_eq_coveredSoFar notHigh, ← grown,
          bodySoFar_eq_coveredSoFar notLast]
      · rw [sums, takes.cka, takes.ckb, inv.sums, covered, takes.coveredSoFar]
    case fits =>
      rw [replay, grown, maxlen, List.length_append]
      exact takes.replayFits inv
  · refine invariant_of_clear payWf ?_ (by rw [scanning]; rfl) clear fun _ => ?_
    · rw [pos, config, rewindPos_pos, takes.config]
      exact Nat.mod_lt _ (posMod_pos _)
    · rw [replay, maxlen, List.length_append, List.length_append, List.length_singleton]
      by_cases pending : u.replay = []
      · rw [pending, replayCap]; simp; omega
      · exact takes.replayFits inv pending
  · refine invariant_of_clear payWf ?_ (by rw [scanning]; rfl) clear fun pending => ?_
    · rw [pos, config]; exact takes.byte_posBound
    · rw [replay] at pending ⊢
      rw [maxlen]
      have := takes.replayFits inv pending
      omega

theorem startsClear_of_idle {st : DecState} (idle : st.inBody = false) : st.startsClear = true := by
  cases st with
  | scanningForSync | expectSyncTrailer => rfl
  | _ => cases idle

/-- The scanner's operations leave the frame registers clear (40_scanner.md R111 to R115). -/
theorem exec_idle_clear {v : U8} {st : DecState} {s t : State} (idle : st.inBody = false) (clear : FrameClear s)
    (run : exec (operationOf (.byte v) st) s = .next t) : t.st.startsClear = true ∧ FrameClear t := by
  cases st with
  | scanningForSync => simp only [operationOf] at run; split_ifs at run <;> cases run <;> exact ⟨rfl, clear⟩
  | expectSyncTrailer =>
    simp only [operationOf] at run
    split_ifs at run <;> cases run
    · exact ⟨rfl, clear⟩
    · exact ⟨rfl, clear⟩
    · exact ⟨rfl, endFrame_clear s⟩
  | _ => cases idle

theorem Takes.frameClear {s u : State} {x : Symbol} (takes : Takes s x u) (clear : FrameClear s) : FrameClear u := by
  cases takes with
  | replay => exact clear
  | input => cases x <;> exact clear

theorem idle_byte_invariant {s u t : State} {v : U8} (inv : Invariant s) (idle : s.st.inBody = false)
    (takes : Takes s (.byte v) u) (run : exec (operationOf (.byte v) s.st) u = .next t) : Invariant t := by
  have payWf : Memory.wf t.pay := exec_payWf (takes.pay ▸ inv.payWf) run
  obtain ⟨⟨maxlen, config, -, -, replay, pos, -⟩, -, -⟩ := idle_byte idle takes.event run
  obtain ⟨start, clear⟩ := exec_idle_clear idle (takes.frameClear (inv.frameClear (startsClear_of_idle idle))) run
  refine invariant_of_clear payWf ?_ start clear fun pending => ?_
  · rw [pos, config, takes.config]; exact takes.byte_posBound
  · rw [replay] at pending ⊢
    rw [maxlen, takes.maxlen]
    have := takes.replayFits inv pending
    omega

theorem flush_invariant {s u t : State} (inv : Invariant s) (takes : Takes s .flush u) (run : exec .flush u = .next t) :
    Invariant t := by
  have payWf : Memory.wf t.pay := exec_payWf (takes.pay ▸ inv.payWf) run
  rw [exec_flush] at run
  cases run
  refine invariant_of_clear payWf ?_ rfl (endFrame_clear u) fun pending => ?_
  · rw [endFrame_pos, endFrame_config, takes.flush_pos, takes.config]; exact inv.posBound
  · rcases takes.source with ⟨_, noFlush, _⟩ | ⟨_, empty, _⟩
    · cases noFlush
    · exact absurd empty pending

theorem step_invariant {s t : State} (inv : Invariant s) (run : step s = .next t) : Invariant t := by
  cases step_case run with
  | reset cfg _ run =>
    obtain ⟨clear, scanning, replay⟩ := exec_reset_discards run
    have payWf : Memory.wf t.pay := exec_payWf (s := beginStep s) inv.payWf run
    cases run
    exact invariant_of_clear payWf (posMod_pos _) rfl clear fun pending => absurd replay pending
  | hold _ _ _ same =>
    subst same
    exact invariant_of_registers inv.payWf inv.posBound inv.registers inv.sums inv.replayFits
  | taken x u _ takes run =>
    cases x with
    | flush => exact flush_invariant inv takes run
    | byte v =>
      cases place : s.st.inBody with
      | true => exact body_byte_invariant inv place takes run
      | false => exact idle_byte_invariant inv place takes run

/-- Settles O35: RESET, a hold, `Flush`, a byte the scanner takes and a byte of a body each keep it. -/
theorem stepKeepsTheInvariant : Obligations.StepKeepsTheInvariant := fun _ _ => step_invariant

end Sys2Proof.Machine
end

section
/-! What holds in every reachable state (10_state.md R34, R35, R37, 43_checksum.md R152, 44_recovery.md R170, 60_exceptions.md R204). -/

namespace Sys2Proof.Machine

theorem invariant_of_reachable {s : State} (reachable : Reachable s) : Invariant s := by
  obtain ⟨c, maxlen, pay, inputs, pin, k, payWf, run⟩ := reachable
  exact run_keeps (fun _ _ => step_invariant) (releaseMeetsTheInvariant.2 c maxlen pay inputs pin payWf) run

theorem core_run_snoc {k : Nat} : ∀ {s t u : State}, Host.Core.run core k s = .next t → step t = .next u →
    Host.Core.run core (k + 1) s = .next u := by
  induction k with
  | zero => intro s t u run last; cases run; exact core_run_succ.mpr ⟨u, last, rfl⟩
  | succ k ih =>
    intro s t u run last
    obtain ⟨v, first, rest⟩ := core_run_succ.mp run
    exact core_run_succ.mpr ⟨v, first, ih rest last⟩

theorem reachable_step {s t : State} (reachable : Reachable s) (run : step s = .next t) : Reachable t := by
  obtain ⟨c, maxlen, pay, inputs, pin, k, payWf, before⟩ := reachable
  exact ⟨c, maxlen, pay, inputs, pin, k + 1, payWf, core_run_snoc before run⟩

theorem holdsPayload_iff (st : DecState) : st.holdsPayload = true ↔
    st = .accumulatingPayload ∨ st = .expectChecksumLow ∨ st = .expectChecksumHigh := by
  cases st <;> simp [DecState.holdsPayload]

/-- Settles O36: the clauses of the invariant, STATE by STATE. -/
theorem reachableFrameRegisters : Obligations.ReachableFrameRegisters := by
  intro s reachable
  have inv := invariant_of_reachable reachable
  refine ⟨⟨fun filling => ⟨inv.pwpFilling filling, ?nonzero⟩, inv.pwpDone, fun notFilling notLow notHigh => inv.pwpIdle ?idle⟩, ?payv,
    fun idle => inv.frameClear ?clear⟩
  case nonzero =>
    intro zero
    have unfilled := inv.pwpFilling filling
    rw [zero] at unfilled
    exact Nat.not_lt_zero _ unfilled
  case idle =>
    rw [Bool.eq_false_iff, Ne, holdsPayload_iff]
    simp only [notFilling, notLow, notHigh, or_self, not_false_eq_true]
  case payv => rw [inv.payvIff, holdsPayload_iff]
  case clear => rcases idle with st | st <;> rw [st] <;> rfl

/-- Settles O37: the invariant's sums; before the checksum bytes all of the covered body has been consumed. -/
theorem reachableSumsArePureChecksum : Obligations.ReachableSumsArePureChecksum := by
  intro s reachable
  have sums := (invariant_of_reachable reachable).sums
  refine ⟨sums, fun complete => ?_⟩
  have covered : coveredSoFar s = headerBytes s ++ Memory.prefixBytes s.pay s.len.toNat := by
    rcases complete with st | st <;> simp only [coveredSoFar, st]
  exact covered ▸ sums

/-- Settles O38: REPLAY with what the frame in progress has taken of it fits, so REPLAY does. -/
theorem reachableReplayFitsItsCapacity : Obligations.ReachableReplayFitsItsCapacity := by
  intro s reachable
  change s.replay.length ≤ replayCap s.maxlen
  by_cases empty : s.replay = []
  · rw [empty]; exact Nat.zero_le _
  · exact (Nat.le_add_left _ _).trans ((invariant_of_reachable reachable).replayFits empty)

/-- Settles O40: every step answers a next state, reachable by one step more, and the invariant gives its packets their length. -/
theorem reachableStepsNeverStop : Obligations.ReachableStepsNeverStop := by
  intro s reachable
  obtain ⟨-, total, declared⟩ := stepIsTotalAndPacketsHaveDeclaredLength
  obtain ⟨t, run⟩ := total s
  exact ⟨t, run, reachable_step reachable run,
    fun c i p packet => declared s t c i p (invariant_of_reachable reachable) run packet⟩

end Sys2Proof.Machine
end

section
/-! The two checksum sums in closed form (43_checksum.md R150). -/

namespace Sys2Proof.Machine

open Sys2Proof

theorem toNat_add_modEq (x y : U8) : (x + y).toNat ≡ x.toNat + y.toNat [MOD 256] := by
  rw [BitVec.toNat_add]
  exact Nat.mod_modEq _ _

/-- The plain and the weighted sum of what is still to come, on top of sums already at `a` and `b`. -/
theorem foldl_accStep_toNat (l : List U8) : ∀ a b : U8,
    (l.foldl accStep (a, b)).1.toNat = (a.toNat + ∑ k : Fin l.length, (l[k]).toNat) % 256 ∧
    (l.foldl accStep (a, b)).2.toNat =
      (b.toNat + l.length * a.toNat + ∑ k : Fin l.length, (l.length - k.val) * (l[k]).toNat) % 256 := by
  induction l with
  | nil => intro a b; simp [Nat.mod_eq_of_lt a.isLt, Nat.mod_eq_of_lt b.isLt]
  | cons v l ih =>
    intro a b
    obtain ⟨plain, weighted⟩ := ih (a + v) (b + (a + v))
    have sumPlain : ∑ k : Fin (v :: l).length, ((v :: l)[k]).toNat = v.toNat + ∑ k : Fin l.length, (l[k]).toNat :=
      Fin.sum_univ_succ _
    have sumWeighted : ∑ k : Fin (v :: l).length, ((v :: l).length - k.val) * ((v :: l)[k]).toNat =
        (l.length + 1) * v.toNat + ∑ k : Fin l.length, (l.length - k.val) * (l[k]).toNat := by
      refine (Fin.sum_univ_succ _).trans ?_
      simp
    rw [sumPlain, sumWeighted]
    refine ⟨plain.trans ?_, weighted.trans ?_⟩
    · rw [BitVec.toNat_add, Nat.mod_add_mod, Nat.add_assoc]
    · have first : (a + v).toNat ≡ a.toNat + v.toNat [MOD 256] := toNat_add_modEq a v
      have second : (b + (a + v)).toNat ≡ b.toNat + (a.toNat + v.toNat) [MOD 256] :=
        (toNat_add_modEq b (a + v)).trans (first.add_left _)
      refine ((second.add (first.mul_left _)).add_right _).trans (congrArg (· % 256) ?_)
      rw [List.length_cons]
      ring

/-- Settles O32: the fold takes its last byte last, and its closed form from 0 and 0 is the two sums. -/
theorem checksumRecurrenceAndClosedForm : Obligations.ChecksumRecurrenceAndClosedForm := by
  refine ⟨rfl, ck_append_one, fun l => ⟨?combined, ?plain, ?weighted⟩⟩
  case combined => rw [fletcher16, combine_eq_or, BitVec.or_comm]
  case plain => simpa [ck] using (foldl_accStep_toNat l 0 0).1
  case weighted => simpa [ck] using (foldl_accStep_toNat l 0 0).2

end Sys2Proof.Machine
end

section
/-! Bytes of PAY that the frame has not written (10_state.md R28, 93_implementation_defined.md U1): no operation of a step reads one. -/

namespace Sys2Proof.Machine

/-- `p` reads like the payload buffer of `s` at every index the frame has written. -/
def AgreesBelow (s : State) (p : Memory) : Prop :=
  ∀ a, s.payv = true → a < s.pwp.toNat → Memory.read p a = Memory.read s.pay a

/-- Agreement lasts while PAY and the indices that count stay. -/
theorem AgreesBelow.kept {s t : State} {p : Memory} (agrees : AgreesBelow s p) (pay : t.pay = s.pay)
    (fewer : t.payv = true → t.pwp = 0 ∨ s.payv = true ∧ t.pwp = s.pwp) : AgreesBelow t p := by
  intro a present below
  rcases fewer present with zero | ⟨before, same⟩
  · rw [zero] at below; exact absurd below (Nat.not_lt_zero a)
  · rw [pay]; exact agrees a before (same ▸ below)

/-- The snapshot holds bytes below PWP only (R43). -/
theorem snap_withPay {s : State} {p : Memory} (agrees : AgreesBelow s p) : snap { s with pay := p } = snap s := by
  have payloads : payload { s with pay := p } = payload s := by
    unfold payload
    by_cases present : s.payv = true
    · simp only [if_pos present]
      exact congrArg some (Memory.prefixBytes_congr fun a below => agrees a present below)
    · simp only [if_neg present]
  simp only [snap, payloads]

/-- `i` comes to the same next state on another buffer, but for the buffer, which agrees again. -/
def SameOn (i : Instr) (s t : State) (p : Memory) : Prop :=
  ∃ q, exec i { s with pay := p } = .next { t with pay := q } ∧ Memory.wf q ∧ AgreesBelow t q

theorem exec_verdict_sameOn {d : Verdict} {s t : State} {p : Memory} (payWf : Memory.wf p) (agrees : AgreesBelow s p)
    (run : exec d.operation s = .next t) : SameOn d.operation s t p := by
  have snaps := snap_withPay agrees
  refine ⟨p, ?_, payWf, ?_⟩
  · cases d with
    | tooLarge | wrongLen => cases run; simp only [Verdict.operation, exec, execVTooLarge, execVWrongLen, snaps]; rfl
    | poll | accept => cases run; rfl
  · cases d with
    | tooLarge | wrongLen => cases run; exact agrees.kept rfl nofun
    | poll | accept => cases run; exact agrees.kept rfl fun _ => .inl rfl

/-- With the payload complete the packet, the record and the body hold bytes the frame has written. -/
theorem exec_outcome_sameOn {o : CkOutcome} {s t : State} {p : Memory} (payWf : Memory.wf p) (agrees : AgreesBelow s p)
    (present : s.payv = true) (complete : s.pwp = s.len) (run : exec o.operation s = .next t) :
    SameOn o.operation s t p := by
  have snaps := snap_withPay agrees
  have bytes : Memory.prefixBytes p s.len.toNat = Memory.prefixBytes s.pay s.len.toNat :=
    Memory.prefixBytes_congr fun a below => agrees a present (complete ▸ below)
  refine ⟨p, ?_, payWf, ?_⟩
  · cases o with
    | packet => cases run; simp only [CkOutcome.operation, exec_ckPacket, bytes]; rfl
    | poll => cases run; simp only [CkOutcome.operation, exec_ckPoll, snaps]; rfl
    | mismatch =>
      have bodies : frameBody { s with pay := p } = frameBody s := by simp only [frameBody, headerBytes, bytes]
      cases run
      simp only [CkOutcome.operation, exec_ckMismatch, snaps, bodies]
      rfl
  · have clear := (exec_outcome_ends run).2
    obtain ⟨-, -, -, -, -, absent, -, -⟩ := clear
    exact fun a present' => Bool.noConfusion (absent.symm.trans present')

/-- FLD.PAY stores its byte at PWP in both buffers (41_field_assembler.md R124). -/
theorem exec_fldPay_sameOn {v : U8} {s t : State} {p : Memory} (canonical : Memory.wf s.pay) (payWf : Memory.wf p)
    (unfilled : s.pwp.toNat < s.len.toNat) (agrees : AgreesBelow s p) (run : exec (.fldPay v) s = .next t) :
    SameOn (.fldPay v) s t p := by
  rw [exec_fldPay] at run
  cases run
  refine ⟨Memory.store p s.pwp.toNat v, exec_fldPay v _, Memory.store_wf _ v payWf, fun a present below => ?_⟩
  have below' : a < s.pwp.toNat + 1 := toNat_pwp_succ unfilled ▸ below
  rw [Memory.read_store _ a v payWf, Memory.read_store _ a v canonical]
  split_ifs with here
  · rfl
  · refine agrees a present (Nat.lt_of_le_of_ne (Nat.le_of_lt_succ below') fun same => here ⟨same, ?_⟩)
    exact same ▸ pwp_lt_payCap unfilled

/-- An operation of the scanner or of a one-byte field: PAY, PAYV and PWP stay, and none is read. -/
theorem sameOn_of_kept {i : Instr} {s t : State} {p : Memory} (payWf : Memory.wf p) (agrees : AgreesBelow s p)
    (same : exec i { s with pay := p } = .next { t with pay := p }) (pay : t.pay = s.pay)
    (fewer : t.payv = true → s.payv = true ∧ t.pwp = s.pwp) : SameOn i s t p :=
  ⟨p, same, payWf, agrees.kept pay fun present => .inr (fewer present)⟩

theorem exec_selected_sameOn {x : Symbol} {st : DecState} {s t : State} {p : Memory} (place : s.st = st)
    (registers : Registers s) (canonical : Memory.wf s.pay) (payWf : Memory.wf p) (agrees : AgreesBelow s p)
    (run : exec (operationOf x st) s = .next t) : SameOn (operationOf x st) s t p := by
  unfold Registers at registers
  cases x with
  | flush => cases run; exact sameOn_of_kept payWf agrees rfl rfl nofun
  | byte v =>
    cases st with
    | scanningForSync =>
      simp only [operationOf] at run ⊢
      split_ifs at run ⊢ <;> cases run <;> exact sameOn_of_kept payWf agrees rfl rfl fun present => ⟨present, rfl⟩
    | expectSyncTrailer =>
      simp only [operationOf] at run ⊢
      split_ifs at run ⊢ <;> cases run
      · exact sameOn_of_kept payWf agrees rfl rfl fun present => ⟨present, rfl⟩
      · exact sameOn_of_kept payWf agrees rfl rfl fun present => ⟨present, rfl⟩
      · exact sameOn_of_kept payWf agrees rfl rfl nofun
    | expectClass | expectId | expectLengthLow | expectChecksumLow =>
      cases run
      exact sameOn_of_kept payWf agrees rfl rfl fun present => ⟨present, rfl⟩
    | expectLengthHigh =>
      rw [exec_operationOf_lengthHigh rfl] at run
      obtain ⟨q, same, rest⟩ := exec_verdict_sameOn (s := acc v { s with len := setHi s.len v }) payWf agrees run
      exact ⟨q, (exec_fldLenhi rfl).trans same, rest⟩
    | accumulatingPayload =>
      rw [place] at registers
      exact exec_fldPay_sameOn canonical payWf registers.1 agrees run
    | expectChecksumHigh =>
      rw [place] at registers
      rw [exec_operationOf_checksumHigh rfl] at run
      obtain ⟨complete, -, present, -⟩ := registers
      obtain ⟨q, same, rest⟩ :=
        exec_outcome_sameOn (s := { s with rxck := setHi s.rxck v }) payWf agrees present complete run
      exact ⟨q, (exec_fldCkhi rfl).trans same, rest⟩

theorem Takes.withPay {s u : State} {x : Symbol} (takes : Takes s x u) (p : Memory) :
    Takes { s with pay := p } x { u with pay := p } := by
  cases takes with
  | replay front => exact Takes.replay front
  | @input _ rest empty front =>
    have stays : { countSymbol x { beginStep s with inputs := rest } with pay := p } =
        countSymbol x { beginStep { s with pay := p } with inputs := rest } := by cases x <;> rfl
    rw [stays]
    exact Takes.input empty front

/-- Settles O44: the other buffer takes the same symbol, and no operation the step can select reads a byte the frame has not written. -/
theorem leftoverPayloadBytesAreUnobservable : Obligations.LeftoverPayloadBytesAreUnobservable := by
  intro s t p inv payWf agrees run
  cases step_case run with
  | reset cfg asserted run =>
    cases run
    exact ⟨p, step_pin (s := { s with pay := p }) asserted, payWf, AgreesBelow.kept agrees rfl nofun⟩
  | hold released noReplay noInput same =>
    subst same
    exact ⟨p, step_quiet (s := { s with pay := p }) released noReplay noInput, payWf, agrees⟩
  | taken x u released takes run =>
    have agrees' : AgreesBelow u p := AgreesBelow.kept agrees takes.pay fun present => .inr ⟨takes.payv ▸ present, takes.pwp⟩
    obtain ⟨q, same, rest⟩ :=
      exec_selected_sameOn takes.st (takes.registers inv.registers) (takes.pay ▸ inv.payWf) payWf agrees' run
    exact ⟨q, (step_of_takes (s := { s with pay := p }) released (takes.withPay p)).trans same, rest⟩

end Sys2Proof.Machine
end

section
/-! What each event records (60_exceptions.md R191 to R195), from every state that meets the invariant. -/

namespace Sys2Proof.Machine

theorem tooLarge_of_verdict {w : State} (decided : verdict w = .tooLarge) : tooLarge w = true := by
  rw [verdict] at decided
  split_ifs at decided with large
  · exact large
  · split at decided <;> cases decided

theorem wrongLen_of_verdict {w : State} {e : U16} (decided : verdict w = .wrongLen e) :
    tooLarge w = false ∧ w.len ≠ 0 ∧ lookup w.config w.cls w.id = some e ∧ w.len ≠ e := by
  rw [verdict] at decided
  split_ifs at decided with large zero
  split at decided
  next e' wrong =>
    cases decided
    exact ⟨Bool.eq_false_iff.mpr large, fun len => zero ((isPoll_iff w).mpr len), wrongLen_eq_some.mp wrong⟩
  next => cases decided

theorem ckMatch_of_poll {w : State} (outcome : ckOutcome w = .poll) : combine w.cka w.ckb = w.rxck ∧ w.len = 0 := by
  rw [ckOutcome] at outcome
  split_ifs at outcome with same zero
  exact ⟨(ckMatch_iff w).mp same, (isPoll_iff w).mp zero⟩

theorem ne_of_mismatch {w : State} (outcome : ckOutcome w = .mismatch) : combine w.cka w.ckb ≠ w.rxck := by
  rw [ckOutcome] at outcome
  split_ifs at outcome with same
  exact fun equal => same ((ckMatch_iff w).mpr equal)

/-- Before the payload is allocated the record has none, and no checksum byte (R43). -/
theorem snap_of_unallocated {w : State} (fresh : Unallocated w) :
    snap w = { cls := w.cls, id := w.id, length := w.len, payload := none, receivedChecksum := 0 } := by
  obtain ⟨rxck, -, payv⟩ := fresh
  simp [snap, payload, rxck, payv]

theorem snap_of_complete {w : State} (present : w.payv = true) (complete : w.pwp = w.len) :
    snap w = { cls := w.cls, id := w.id, length := w.len, payload := some (Memory.prefixBytes w.pay w.len.toNat)
               receivedChecksum := w.rxck } := by
  rw [snap, payload_eq_of_complete present complete]

/-- A byte taken from REPLAY leaves it one shorter; one taken from IN leaves it empty. -/
theorem Takes.replay_length {s u : State} {x : Symbol} (takes : Takes s x u) : u.replay.length = s.replay.length - 1 := by
  rcases takes.source with ⟨_, _, front, _⟩ | ⟨empty, after, _⟩
  · rw [front]; rfl
  · rw [empty, after]; rfl

/-- What a completed LEN leaves of the registers before it. -/
theorem Takes.lengthHigh {s u w : State} {v : U8} (takes : Takes s (.byte v) u) (hw : w = acc v { u with len := setHi u.len v }) :
    (w.cls = s.cls ∧ w.id = s.id ∧ lo w.len = lo s.len) ∧ (w.rxck = s.rxck ∧ w.pwp = s.pwp ∧ w.payv = s.payv) ∧
      w.maxlen = s.maxlen ∧ w.config = s.config := by
  subst hw
  exact ⟨⟨takes.cls, takes.id, by rw [acc_len, lo_setHi, takes.len]⟩, ⟨takes.rxck, takes.pwp, takes.payv⟩, takes.maxlen,
    takes.config⟩

/-- What a completed RXCK leaves of the registers before it. -/
theorem Takes.checksumHigh {s u w : State} {v : U8} (takes : Takes s (.byte v) u) (hw : w = { u with rxck := setHi u.rxck v }) :
    (w.cls = s.cls ∧ w.id = s.id ∧ w.len = s.len ∧ lo w.rxck = lo s.rxck) ∧
      (w.payv = s.payv ∧ w.pwp = s.pwp ∧ w.pay = s.pay) ∧ combine w.cka w.ckb = s.ckb ++ s.cka ∧
      w.replay.length = s.replay.length - 1 := by
  subst hw
  exact ⟨⟨takes.cls, takes.id, takes.len, by rw [lo_setHi, takes.rxck]⟩, ⟨takes.payv, takes.pwp, takes.pay⟩,
    congrArg₂ combine takes.cka takes.ckb, takes.replay_length⟩

/-- Settles O31: a verdict's report is of a frame with nothing allocated, an outcome's of one with its payload complete. -/
theorem eventsRecordTheFrame : Obligations.EventsRecordTheFrame := by
  intro s t e inv run emitted
  obtain ⟨v, u, takes, ⟨st, w, hw, reported⟩ | ⟨st, w, hw, reported, ends⟩⟩ := step_event run emitted
  · obtain ⟨⟨cls, id, low⟩, ⟨rxck, pwp, payv⟩, maxlen, config⟩ := takes.lengthHigh hw
    have fresh : Unallocated w := by
      rw [Unallocated, rxck, pwp, payv]
      exact inv.unallocated (by rw [st]; rfl)
    have record := snap_of_unallocated fresh
    rw [cls, id] at record
    cases decided : verdict w with
    | poll | accept => rw [decided] at reported; cases reported
    | tooLarge =>
      rw [decided] at reported
      cases reported
      obtain ⟨limited, exceeds⟩ := (tooLarge_iff w).mp (tooLarge_of_verdict decided)
      exact ⟨w.len, record, low, maxlen, limited, exceeds⟩
    | wrongLen e' =>
      rw [decided] at reported
      cases reported
      obtain ⟨fits, nonzero, entry, differs⟩ := wrongLen_of_verdict decided
      rw [config, cls, id] at entry
      exact ⟨w.len, record, low, nonzero, entry, differs, maxlen ▸ len_le_lmax fits⟩
  · obtain ⟨⟨cls, id, len, low⟩, ⟨payv, pwp, pay⟩, sums, left⟩ := takes.checksumHigh hw
    have present : w.payv = true := payv.trans (inv.allocated (by rw [st]; rfl)).1
    have filled : w.pwp = w.len := pwp.trans ((inv.pwpDone (.inr st)).trans len.symm)
    have record := snap_of_complete present filled
    rw [cls, id, len, pay] at record
    cases outcome : ckOutcome w with
    | packet =>
      rw [outcome] at reported
      cases reported
      exact ⟨cls, id, len ▸ len_ne_zero_of_packet outcome, by rw [len, pay]; rfl⟩
    | poll =>
      rw [outcome] at reported
      cases reported
      obtain ⟨same, zero⟩ := ckMatch_of_poll outcome
      rw [len] at zero
      exact ⟨w.rxck, by rw [record, zero]; rfl, same.symm.trans sums, zero⟩
    | mismatch =>
      rw [outcome] at reported ends
      cases reported
      cases ends
      refine ⟨w.rxck, record, low, sums, ne_of_mismatch outcome, ?_⟩
      simp only [raise_replay, reinjectBytes_replay, List.length_append, frameBody_length, len, left]
      omega

end Sys2Proof.Machine
end

section
/-! The stream over a step with the pin released: what a step does to the symbols the block has not finished with (44_recovery.md R165 to
R173). -/

namespace Sys2Proof.Machine

/-! ### The pin -/

theorem exec_verdict_resetPin {d : Verdict} {s t : State} (run : exec d.operation s = .next t) : t.resetPin = s.resetPin := by
  cases d <;> cases run <;> rfl

theorem exec_outcome_resetPin {o : CkOutcome} {s t : State} (run : exec o.operation s = .next t) :
    t.resetPin = s.resetPin := by
  cases o <;> cases run <;> rfl

theorem exec_resetPin {i : Instr} {s t : State} (run : exec i s = .next t) : t.resetPin = s.resetPin := by
  cases i with
  | fldLenhi v =>
    rw [exec_fldLenhi rfl] at run
    simpa using exec_verdict_resetPin run
  | fldCkhi v =>
    rw [exec_fldCkhi rfl] at run
    simpa using exec_outcome_resetPin run
  | _ => cases run; rfl

theorem step_resetPin {s t : State} (run : step s = .next t) : t.resetPin = s.resetPin.tail := by
  cases step_case run with
  | reset cfg _ run => exact (exec_resetPin run).trans (beginStep_resetPin s)
  | hold _ _ _ same => rw [same]; rfl
  | taken x u _ takes run => exact (exec_resetPin run).trans takes.resetPin

theorem pinNow_of_pinReleased {s : State} (released : PinReleased s) : pinNow s = none := by
  rw [pinNow]
  cases pin : s.resetPin with
  | nil => rfl
  | cons p rest => exact released p (pin ▸ List.mem_cons_self)

theorem step_pinReleased {s t : State} (released : PinReleased s) (run : step s = .next t) : PinReleased t := by
  intro p listed
  rw [step_resetPin run] at listed
  exact released p (List.mem_of_mem_tail listed)

/-! ### One step -/

/-- What a step makes of the unfinished symbols. -/
inductive Progress (s t : State) : Prop where
  /-- There was none. -/
  | held (noReplay : s.replay = []) (noInput : s.inputs = []) (same : t = beginStep s)
  /-- A byte went into the body in progress. -/
  | grew (body : s.st.inBody = true) (stays : t.st.inBody = true) (silent : t.event = none)
      (kept : unfinished t = unfinished s) (longer : (bodySoFar t).length = (bodySoFar s).length + 1)
      (short : (bodySoFar t).length ≤ lmax s.maxlen + 5)
      (pos : t.pos + (bodySoFar s).length ≡ s.pos + (bodySoFar t).length [MOD posMod s.config])
  /-- The body with its last byte went back in front of REPLAY. -/
  | failed (body : s.st.inBody = true) (scanning : t.st = .scanningForSync)
      (kept : unfinished t = unfinished s) (short : (bodySoFar s).length ≤ lmax s.maxlen + 5)
      (pos : t.pos + (bodySoFar s).length ≡ s.pos + (bodySoFar t).length [MOD posMod s.config])
  /-- The body in progress, if there was one, and the symbol are gone. -/
  | dropped (x : Symbol) (scanning : t.st = .scanningForSync) (other : ∀ f c, t.event ≠ some (.failedChecksum f c))
      (gone : unfinished s = (bodySoFar s).map Symbol.byte ++ x :: unfinished t)
  /-- The scanner took the symbol. -/
  | scanned (x : Symbol) (idle : s.st.inBody = false) (silent : t.event = none) (gone : unfinished s = x :: unfinished t)
      (next : (t.st = .expectClass ∧ s.st = .expectSyncTrailer) ∨ t.st = .expectSyncTrailer ∨ t.st = .scanningForSync)

theorem bodySoFar_of_scanning {s : State} (scanning : s.st = .scanningForSync) : bodySoFar s = [] :=
  bodySoFar_of_startsClear (by rw [scanning]; rfl)

theorem unfinished_of_scanning {s : State} (scanning : s.st = .scanningForSync) :
    unfinished s = s.replay.map Symbol.byte ++ s.inputs := by
  rw [unfinished, bodySoFar_of_scanning scanning, List.nil_append]

/-- The unfinished symbols with the one taken set apart. -/
theorem Takes.unfinished {s u : State} {x : Symbol} (takes : Takes s x u) :
    unfinished s = (bodySoFar s).map Symbol.byte ++ x :: (u.replay.map Symbol.byte ++ u.inputs) := by
  rw [Machine.unfinished, List.map_append, List.append_assoc, takes.stream]

theorem body_byte_progress {s u t : State} {v : U8} (inv : Invariant s) (body : s.st.inBody = true)
    (takes : Takes s (.byte v) u) (run : exec (operationOf (.byte v) s.st) u = .next t) : Progress s t := by
  obtain ⟨⟨-, -, inputs, -⟩, outcome⟩ := body_byte inv body takes.frame takes.event run
  have before := takes.unfinished
  have taken : u.pos ≡ s.pos + 1 [MOD posMod s.config] := by rw [takes.byte_pos]; exact Nat.mod_modEq _ _
  rcases outcome with ⟨stays, grown, replay, pos, silent, short⟩ | ⟨scanning, -, -, replay, pos, short⟩ |
    ⟨scanning, -, other, replay, -⟩
  · have longer : (bodySoFar t).length = (bodySoFar s).length + 1 := by rw [grown, List.length_append]; rfl
    refine .grew body stays silent ?_ longer short ?_
    · rw [before, unfinished, grown, replay, inputs]; simp
    · rw [pos, longer, ← Nat.add_assoc, Nat.add_right_comm]
      exact taken.add_right _
  · refine .failed body scanning ?_ short ?_
    · rw [before, unfinished_of_scanning scanning, replay, inputs]; simp
    · have back := rewindPos_pos_add (bodySoFar s ++ [v]).length u
      rw [← pos, takes.config, List.length_append, List.length_singleton, ← Nat.add_assoc] at back
      rw [bodySoFar_of_scanning scanning]
      exact Nat.ModEq.add_right_cancel' 1 (Nat.ModEq.trans back taken)
  · refine .dropped (.byte v) scanning other ?_
    rw [before, unfinished_of_scanning scanning, replay, inputs]

theorem idle_byte_progress {s u t : State} {v : U8} (idle : s.st.inBody = false) (takes : Takes s (.byte v) u)
    (run : exec (operationOf (.byte v) s.st) u = .next t) : Progress s t := by
  obtain ⟨⟨-, -, inputs, -, replay, -, silent⟩, next, empty⟩ := idle_byte idle takes.event run
  refine .scanned (.byte v) idle silent ?_ next
  rw [takes.unfinished, bodySoFar_of_startsClear (startsClear_of_idle idle), unfinished, empty, replay, inputs]
  rfl

theorem step_progress {s t : State} (inv : Invariant s) (released : pinNow s = none) (run : step s = .next t) :
    Progress s t := by
  cases step_case run with
  | reset cfg asserted => cases asserted.symm.trans released
  | hold _ noReplay noInput same => exact .held noReplay noInput same
  | taken x u _ takes run =>
    cases x with
    | flush =>
      rw [exec_operationOf_flush] at run
      cases run
      refine .dropped .flush rfl (by rw [endFrame_event, takes.event]; nofun) ?_
      rw [takes.unfinished, unfinished_of_scanning (endFrame_st u)]
      rfl
    | byte v =>
      cases place : s.st.inBody with
      | true => exact body_byte_progress inv place takes run
      | false => exact idle_byte_progress place takes run

/-! ### A whole body put back -/

/-- A frame in progress until it fails: the unfinished symbols at its failure are those of any moment on the way, and POS has gone on by
what the body had still to take and back by the whole of it. -/
theorem unfinished_at_failure {k : Nat} : ∀ {s t : State}, Invariant s → PinReleased s → s.st.inBody = true →
    (∀ j u, 0 < j → j < k → Host.Core.run core j s = .next u → u.st.inBody = true) →
    Host.Core.run core k s = .next t → (∃ f c, t.event = some (.failedChecksum f c)) → s.event = none →
    unfinished t = unfinished s ∧ t.st = .scanningForSync ∧
      t.pos + (bodySoFar s).length ≡ s.pos [MOD posMod s.config] := by
  induction k with
  | zero =>
    intro s t _ _ _ _ run ⟨f, c, failure⟩ silent
    cases run
    cases silent.symm.trans failure
  | succ k ih =>
    intro s t inv released body inFrame run failure silent
    obtain ⟨u, first, rest⟩ := core_run_succ.mp run
    have later : ∀ j w, 0 < j → j < k → Host.Core.run core j u = .next w → w.st.inBody = true := fun j w _ less run' =>
      inFrame (j + 1) w (Nat.succ_pos j) (Nat.succ_lt_succ less) (core_run_succ.mpr ⟨u, first, run'⟩)
    have atEnd (scanning : u.st = .scanningForSync) : t = u := by
      cases k with
      | zero => cases rest; rfl
      | succ k =>
        have stays := inFrame 1 u Nat.one_pos (by omega) (core_run_succ.mpr ⟨u, first, rfl⟩)
        rw [scanning] at stays
        cases stays
    have go := ih (t := t) (step_invariant inv first) (step_pinReleased released first)
    cases step_progress inv (pinNow_of_pinReleased released) first with
    | held _ _ same =>
      subst same
      exact go body later rest failure rfl
    | grew _ stays silent kept longer _ pos =>
      obtain ⟨same, scanning, back⟩ := go stays later rest failure silent
      refine ⟨same.trans kept, scanning, ?_⟩
      rw [step_config first, longer] at back
      rw [longer, ← Nat.add_assoc, Nat.add_right_comm] at pos
      have taken : u.pos ≡ s.pos + 1 [MOD posMod s.config] := Nat.ModEq.add_right_cancel' _ pos
      exact Nat.ModEq.add_right_cancel' 1 (back.trans taken)
    | failed _ scanning kept _ pos =>
      obtain rfl := atEnd scanning
      rw [bodySoFar_of_scanning scanning] at pos
      exact ⟨kept, scanning, pos⟩
    | dropped x scanning other =>
      obtain rfl := atEnd scanning
      obtain ⟨f, c, failure⟩ := failure
      exact absurd failure (other f c)
    | scanned x idle => exact Bool.noConfusion (body.symm.trans idle)

/-- Settles O41: at ExpectClass the body is still empty, so the unfinished symbols are those in front of the scanner. -/
theorem recoveryRestoresTheStream : Obligations.RecoveryRestoresTheStream := by
  intro s t k inv released st inFrame run failure silent
  have start : s.st.startsClear = true := by rw [st]; rfl
  have atStart : bodySoFar s = [] := bodySoFar_of_startsClear start
  obtain ⟨kept, scanning, pos⟩ := unfinished_at_failure inv released (by rw [st]; rfl) inFrame run failure silent
  have inv' : Invariant t := run_keeps (fun _ _ => step_invariant) inv run
  have config : t.config = s.config :=
    run_keeps (P := fun u => u.config = s.config) (fun _ _ same run => (step_config run).trans same) rfl run
  rw [unfinished_of_scanning scanning, unfinished, atStart] at kept
  rw [atStart] at pos
  exact ⟨kept, Nat.ModEq.eq_of_lt_of_lt pos (config ▸ inv'.posBound) inv.posBound, scanning⟩

/-! ### Coming to rest -/

theorem drainBound_lt_of_unfinished_lt {s t : State} (maxlen : t.maxlen = s.maxlen)
    (fewer : (unfinished t).length + 1 ≤ (unfinished s).length) : drainBound t < drainBound s := by
  have rescan : (if t.st.inBody then replayCap s.maxlen - (bodySoFar t).length else 0) ≤ replayCap s.maxlen := by
    split_ifs
    · exact Nat.sub_le _ _
    · exact Nat.zero_le _
  calc drainBound t
      ≤ (unfinished t).length * (replayCap s.maxlen + 1) + replayCap s.maxlen := by
        rw [drainBound, maxlen]; exact Nat.add_le_add_left rescan _
    _ < ((unfinished t).length + 1) * (replayCap s.maxlen + 1) := by rw [Nat.succ_mul]; omega
    _ ≤ (unfinished s).length * (replayCap s.maxlen + 1) := Nat.mul_le_mul_right _ fewer
    _ ≤ drainBound s := Nat.le_add_right _ _

/-- Every step that is not a hold comes nearer to rest (44_recovery.md R172). -/
theorem step_drainBound_lt {s t : State} (inv : Invariant s) (released : pinNow s = none) (busy : quiet s = false)
    (run : step s = .next t) : drainBound t < drainBound s := by
  have maxlen := step_maxlen released run
  cases step_progress inv released run with
  | held noReplay noInput => simp [quiet, noReplay, noInput] at busy
  | grew body stays _ kept longer short =>
    rw [drainBound, drainBound, kept, maxlen, if_pos body, if_pos stays]
    simp only [replayCap]
    omega
  | failed body scanning kept short =>
    rw [drainBound, drainBound, kept, maxlen, if_pos body, scanning]
    simp only [replayCap, DecState.inBody]
    simp
    omega
  | dropped x _ _ gone =>
    refine drainBound_lt_of_unfinished_lt maxlen ?_
    rw [gone, List.length_append, List.length_cons]
    omega
  | scanned x _ _ gone => exact drainBound_lt_of_unfinished_lt maxlen (by rw [gone]; rfl)

theorem comes_to_rest (n : Nat) : ∀ {s : State}, Invariant s → PinReleased s → drainBound s ≤ n →
    ∃ k t, k ≤ n ∧ Host.Core.run core k s = .next t ∧ t.replay = [] ∧ t.inputs = [] := by
  induction n with
  | zero =>
    intro s _ _ bound
    have nothing : unfinished s = [] := by
      rw [← List.length_eq_zero_iff]
      by_contra left
      have costs := Nat.mul_pos (Nat.pos_of_ne_zero left) (Nat.zero_lt_succ (replayCap s.maxlen))
      exact absurd (costs.trans_le ((Nat.le_add_right _ _).trans bound)) (Nat.lt_irrefl 0)
    simp only [unfinished, List.append_eq_nil_iff, List.map_eq_nil_iff] at nothing
    obtain ⟨⟨-, noReplay⟩, noInput⟩ := nothing
    exact ⟨0, s, le_rfl, rfl, noReplay, noInput⟩
  | succ n ih =>
    intro s inv released bound
    cases rest : quiet s with
    | true =>
      obtain ⟨noReplay, noInput⟩ := Bool.and_eq_true_iff.mp rest
      exact ⟨0, s, Nat.zero_le _, rfl, List.isEmpty_iff.mp noReplay, List.isEmpty_iff.mp noInput⟩
    | false =>
      obtain ⟨u, first⟩ := step_next s
      have nearer := step_drainBound_lt inv (pinNow_of_pinReleased released) rest first
      obtain ⟨k, t, within, run, empty⟩ :=
        ih (step_invariant inv first) (step_pinReleased released first) (by omega)
      exact ⟨k + 1, t, Nat.succ_le_succ within, core_run_succ.mpr ⟨u, first, run⟩, empty⟩

/-! ### Counting the failures -/

/-- The sync bytes of the frame in progress. -/
def syncTaken (st : DecState) : Nat :=
  match st with
  | .scanningForSync => 0
  | .expectSyncTrailer => 1
  | _ => 2

theorem syncTaken_of_inBody {st : DecState} (body : st.inBody = true) : syncTaken st = 2 := by
  cases st with
  | scanningForSync | expectSyncTrailer => cases body
  | _ => rfl

/-- What is unfinished, with the sync bytes taken, which a failed frame does not give back. -/
def outstanding (s : State) : Nat := (unfinished s).length + syncTaken s.st

/-- Every failure costs two symbols for good (44_recovery.md R169). -/
theorem step_outstanding {s t : State} (inv : Invariant s) (released : pinNow s = none) (run : step s = .next t) :
    2 * t.event.toList.countP Event.isFailedChecksum + outstanding t ≤ outstanding s := by
  cases step_progress inv released run with
  | held _ _ same => subst same; exact (Nat.zero_add _).le
  | grew body stays silent kept =>
    rw [outstanding, outstanding, kept, syncTaken_of_inBody body, syncTaken_of_inBody stays, silent]
    exact (Nat.zero_add _).le
  | failed body scanning kept =>
    have once : t.event.toList.countP Event.isFailedChecksum ≤ 1 :=
      List.countP_le_length.trans (Option.length_toList_le)
    rw [outstanding, outstanding, kept, syncTaken_of_inBody body, scanning]
    simp only [syncTaken]
    omega
  | dropped x scanning other gone =>
    have uncounted : t.event.toList.countP Event.isFailedChecksum = 0 := by
      cases event : t.event with
      | none => rfl
      | some e =>
        cases e with
        | failedChecksum f c => exact absurd event (other f c)
        | _ => rfl
    rw [outstanding, outstanding, gone, uncounted, scanning, List.length_append, List.length_cons]
    simp only [syncTaken]
    omega
  | scanned x idle silent gone next =>
    have counted : syncTaken t.st ≤ 1 + syncTaken s.st := by
      rcases next with ⟨st, before⟩ | st | st
      · rw [st, before]; exact le_rfl
      · rw [st]; exact Nat.le_add_right 1 _
      · rw [st]; exact Nat.zero_le _
    rw [outstanding, outstanding, gone, silent, List.length_cons, Option.toList_none, List.countP_nil]
    omega

theorem runEvents_failures {k : Nat} : ∀ {s t : State} {es : List Event}, Invariant s → PinReleased s →
    runEvents k s = some (t, es) → 2 * es.countP Event.isFailedChecksum ≤ outstanding s := by
  induction k with
  | zero => intro s t es _ _ run; cases run; exact Nat.zero_le _
  | succ k ih =>
    intro s t es inv released run
    obtain ⟨u, fs, first, rest, rfl⟩ := runEvents_succ.mp run
    have now := step_outstanding inv (pinNow_of_pinReleased released) first
    have later := ih (step_invariant inv first) (step_pinReleased released first) rest
    rw [List.countP_append]
    omega

/-- Settles O42: the drain bound falls with every step, and every failure uses up two symbols. -/
theorem rescanningComesToRest : Obligations.RescanningComesToRest := by
  intro s inv released scanning empty
  have length : (unfinished s).length = s.inputs.length := by
    rw [unfinished_of_scanning scanning, empty]; rfl
  have bound : drainBound s = s.inputs.length + s.inputs.length * (lmax s.maxlen + 6) := by
    rw [drainBound, length, scanning, Nat.mul_succ, Nat.add_comm _ s.inputs.length]
    rfl
  refine ⟨comes_to_rest _ inv released bound.le, fun k t es run => ?_⟩
  have failures := runEvents_failures inv released run
  rw [outstanding, length, scanning] at failures
  simp only [syncTaken] at failures
  omega

end Sys2Proof.Machine
end

section
/-! A frame on the wire, byte by byte (30_encoding.md R80, R97): the STATE and the body after each of its bytes, wherever the bytes come
from. -/

namespace Sys2Proof.Machine

open Sys2Proof

@[simp] theorem coveredBytes_length (c i : U8) (n : U16) (p : List U8) : (coveredBytes c i n p).length = p.length + 4 := by
  simp [coveredBytes]

@[simp] theorem wireFrame_length (c i : U8) (n : U16) (p : List U8) (a b : U8) :
    (wireFrame c i n p a b).length = p.length + 8 := by
  simp [wireFrame]

/-! ### Bytes that come next -/

/-- The bytes `l` come next, all of them from REPLAY or, REPLAY being empty, from IN; after them REPLAY is `r` and IN is `ins`. -/
def Coming (s : State) (l r : List U8) (ins : List Symbol) : Prop :=
  (s.replay = l ++ r ∧ s.inputs = ins) ∨ (r = [] ∧ s.replay = [] ∧ s.inputs = l.map Symbol.byte ++ ins)

theorem Coming.takes {s : State} {v : U8} {l r : List U8} {ins : List Symbol} (coming : Coming s (v :: l) r ins) :
    ∃ u, Takes s (.byte v) u ∧ Coming u l r ins := by
  rcases coming with ⟨replay, inputs⟩ | ⟨left, empty, inputs⟩
  · exact ⟨_, .replay replay, .inl ⟨rfl, inputs⟩⟩
  · exact ⟨_, .input empty inputs, .inr ⟨left, empty, rfl⟩⟩

theorem Coming.congr {s t : State} {l r : List U8} {ins : List Symbol} (coming : Coming s l r ins)
    (replay : t.replay = s.replay) (inputs : t.inputs = s.inputs) : Coming t l r ins := by
  rwa [Coming, replay, inputs]

theorem Coming.done {s : State} {r : List U8} {ins : List Symbol} (coming : Coming s [] r ins) :
    s.replay = r ∧ s.inputs = ins := by
  rcases coming with now | ⟨rfl, now⟩ <;> exact now

/-- With REPLAY empty the bytes come from IN. -/
theorem coming_of_inputs {s : State} {l : List U8} {ins : List Symbol} (empty : s.replay = [])
    (inputs : s.inputs = l.map Symbol.byte ++ ins) : Coming s l [] ins := .inr ⟨rfl, empty, inputs⟩

/-! ### Bytes taken in silence -/

/-- From `s` the bytes `l` are taken, one a step, without an event, and the block is then in `t`. -/
structure Feeds (s : State) (l : List U8) (t : State) : Prop where
  run : runEvents l.length s = some (t, [])
  maxlen : t.maxlen = s.maxlen
  config : t.config = s.config
  pos : t.pos ≡ s.pos + l.length [MOD posMod s.config]
  invariant : Invariant t
  released : PinReleased t

theorem Feeds.refl {s : State} (inv : Invariant s) (released : PinReleased s) : Feeds s [] s :=
  ⟨rfl, rfl, rfl, Nat.ModEq.refl _, inv, released⟩

theorem Feeds.trans {s t u : State} {l m : List U8} (first : Feeds s l t) (second : Feeds t m u) : Feeds s (l ++ m) u where
  run := by rw [List.length_append]; exact runEvents_add first.run second.run
  maxlen := second.maxlen.trans first.maxlen
  config := second.config.trans first.config
  pos := by
    rw [List.length_append, ← Nat.add_assoc]
    exact (first.config ▸ second.pos).trans (first.pos.add_right _)
  invariant := second.invariant
  released := second.released

theorem feeds_of_step {s u t : State} {v : U8} (inv : Invariant s) (released : PinReleased s) (takes : Takes s (.byte v) u)
    (run : exec (operationOf (.byte v) s.st) u = .next t) (silent : t.event = none) (pos : t.pos = u.pos) : Feeds s [v] t := by
  have now : pinNow s = none := pinNow_of_pinReleased released
  have first : step s = .next t := (step_of_takes now takes).trans run
  refine ⟨runEvents_succ.mpr ⟨t, [], first, rfl, by rw [silent]; rfl⟩, step_maxlen now first, step_config first, ?_,
    step_invariant inv first, step_pinReleased released first⟩
  rw [pos, takes.byte_pos]
  exact Nat.mod_modEq _ _

/-- A byte the scanner discards. -/
theorem feeds_skip {l : List U8} : ∀ {s : State} {m r : List U8} {ins : List Symbol}, Invariant s → PinReleased s →
    s.st = .scanningForSync → (∀ v ∈ l, v ≠ 0xB5) → Coming s (l ++ m) r ins →
    ∃ t, Feeds s l t ∧ t.st = .scanningForSync ∧ Coming t m r ins := by
  induction l with
  | nil => intro s m r ins inv released scanning _ coming; exact ⟨s, .refl inv released, scanning, coming⟩
  | cons v l ih =>
    intro s m r ins inv released scanning others coming
    obtain ⟨u, takes, left⟩ := coming.takes
    have run : exec (operationOf (.byte v) s.st) u = .next { u with st := .scanningForSync } := by
      rw [scanning, operationOf, if_neg (others v List.mem_cons_self)]; rfl
    have first := feeds_of_step inv released takes run takes.event rfl
    obtain ⟨t, rest, scanning', coming'⟩ := ih first.invariant first.released rfl
      (fun w listed => others w (List.mem_cons_of_mem _ listed)) (left.congr rfl rfl)
    exact ⟨t, first.trans rest, scanning', coming'⟩

/-! ### The STATE after each byte -/

/-- STATE after `k` bytes of a frame of length `n`, its last byte still to come (40_scanner.md R118, 41_field_assembler.md R129). -/
def stateAfter (n : U16) : Nat → DecState
  | 0 => .scanningForSync
  | 1 => .expectSyncTrailer
  | 2 => .expectClass
  | 3 => .expectId
  | 4 => .expectLengthLow
  | 5 => .expectLengthHigh
  | k + 6 => if k < n.toNat then .accumulatingPayload else if k = n.toNat then .expectChecksumLow else .expectChecksumHigh

/-- `s` has taken the bytes `taken` of a frame of length `n`: two sync bytes, then the body. -/
structure Within (s : State) (n : U16) (taken : List U8) : Prop where
  st : s.st = stateAfter n taken.length
  body : bodySoFar s = taken.drop 2

theorem stateAfter_inBody {n : U16} {k : Nat} (synced : 2 ≤ k) : (stateAfter n k).inBody = true := by
  match k with
  | 0 | 1 => omega
  | 2 | 3 | 4 | 5 => rfl
  | k + 6 => simp only [stateAfter]; split_ifs <;> rfl

/-- With all four header bytes in the body, the registers hold the header of any frame the body begins. -/
theorem header_of_body {s : State} {c i : U8} {n : U16} {p m : List U8} (present : s.st.holdsPayload = true)
    (body : bodySoFar s ++ m = coveredBytes c i n p) : s.cls = c ∧ s.id = i ∧ s.len = n := by
  have header : ∃ rest, bodySoFar s = headerBytes s ++ rest := by
    cases st : s.st with
    | accumulatingPayload => exact ⟨_, by simp only [bodySoFar, coveredSoFar, st]; rfl⟩
    | expectChecksumLow => exact ⟨_, by simp only [bodySoFar, coveredSoFar, st]; rfl⟩
    | expectChecksumHigh => exact ⟨_, by simp only [bodySoFar, coveredSoFar, st, List.append_assoc]; rfl⟩
    | _ => rw [st] at present; cases present
  obtain ⟨rest, header⟩ := header
  rw [header, headerBytes, coveredBytes] at body
  simp only [List.cons_append, List.nil_append, List.cons.injEq] at body
  obtain ⟨cls, id, low, high, -⟩ := body
  exact ⟨cls, id, lo_hi_ext low high⟩

/-- FLD.LENHI completes the header (30_encoding.md R83). -/
theorem header_of_lengthHigh {s u w : State} {c i : U8} {n : U16} (st : s.st = .expectLengthHigh)
    (body : bodySoFar s = [c, i, lo n]) (takes : Takes s (.byte (hi n)) u)
    (hw : w = acc (hi n) { u with len := setHi u.len (hi n) }) : w.cls = c ∧ w.id = i ∧ w.len = n := by
  simp only [bodySoFar, coveredSoFar, st, List.cons.injEq, and_true] at body
  obtain ⟨cls, id, low⟩ := body
  subst hw
  refine ⟨takes.cls.trans cls, takes.id.trans id, ?_⟩
  rw [acc_len, setHi, takes.len, low, combine_lo_hi]

theorem not_tooLarge_of_le {w : State} (fits : w.len.toNat ≤ lmax w.maxlen) :
    ¬(w.maxlen ≠ 0 ∧ w.maxlen.toNat < w.len.toNat) := by
  rintro ⟨limited, exceeds⟩
  rw [lmax, if_neg limited] at fits
  exact absurd exceeds (Nat.not_lt.mpr fits)

/-- The validator lets an acceptable header through (42_validator.md R136). -/
theorem verdict_of_acceptable {w : State} {p : List U8} (acceptable : Acceptable w w.cls w.id w.len p) :
    verdict w = if w.len = 0 then .poll else .accept := by
  obtain ⟨-, fits, agrees⟩ := acceptable
  split_ifs with zero
  · exact verdict_eq_poll (not_tooLarge_of_le fits) zero
  · refine verdict_eq_accept (not_tooLarge_of_le fits) zero (wrongLen_eq_none ?_)
    cases entry : lookup w.config w.cls w.id with
    | none => exact .inl rfl
    | some e => exact .inr (congrArg some (agrees zero e entry))

/-- FLD.LENHI on an acceptable header goes on to the payload, or with length 0 to the checksum. -/
theorem next_of_lengthHigh {s u t : State} {c i : U8} {n : U16} {p : List U8} (st : s.st = .expectLengthHigh)
    (body : bodySoFar s = [c, i, lo n]) (acceptable : Acceptable s c i n p) (takes : Takes s (.byte (hi n)) u)
    (run : exec (operationOf (.byte (hi n)) s.st) u = .next t) :
    t.st = if n = 0 then .expectChecksumLow else .accumulatingPayload := by
  obtain ⟨cls, id, len⟩ := header_of_lengthHigh st body takes rfl
  obtain ⟨-, -, maxlen, config⟩ := takes.lengthHigh rfl
  rw [st, exec_operationOf_lengthHigh rfl] at run
  generalize acc (hi n) { u with len := setHi u.len (hi n) } = w at run cls id len maxlen config
  have accepted : Acceptable w w.cls w.id w.len p := by
    rw [Acceptable, maxlen, config, cls, id, len]
    exact acceptable
  rw [verdict_of_acceptable accepted, len] at run
  split_ifs at run ⊢ <;> cases run <;> rfl

/-- While the payload is filled, the bytes taken say how far. -/
theorem next_of_payload {s u t : State} {c i : U8} {n : U16} {p m : List U8} {v : U8} (st : s.st = .accumulatingPayload)
    (header : bodySoFar s ++ m = coveredBytes c i n p) (takes : Takes s (.byte v) u)
    (run : exec (operationOf (.byte v) s.st) u = .next t) :
    t.st = if (bodySoFar s).length = n.toNat + 3 then .expectChecksumLow else .accumulatingPayload := by
  obtain ⟨-, -, len⟩ := header_of_body (by rw [st]; rfl) header
  have length : (bodySoFar s).length = s.pwp.toNat + 4 := by simp [bodySoFar, coveredSoFar, st, headerBytes]
  have last : (bodySoFar s).length = n.toNat + 3 ↔ s.pwp.toNat + 1 = n.toNat := by omega
  rw [st, exec_operationOf_payload, takes.pwp, takes.len, len] at run
  cases run
  exact (if_congr last rfl rfl).symm

/-- The STATE each byte of a frame leads to, up to the one before the last. -/
theorem next_stateAfter {s u t : State} {c i : U8} {n : U16} {p : List U8} {a b v : U8} {taken rest : List U8}
    (within : Within s n taken) (frame : taken ++ v :: rest = wireFrame c i n p a b) (more : rest ≠ [])
    (acceptable : 5 ≤ taken.length → Acceptable s c i n p) (takes : Takes s (.byte v) u)
    (run : exec (operationOf (.byte v) s.st) u = .next t) : t.st = stateAfter n (taken.length + 1) := by
  obtain ⟨st, body⟩ := within
  match taken with
  | [] =>
    obtain ⟨rfl, -⟩ : v = 0xB5 ∧ _ := List.cons.inj frame
    rw [st, show operationOf _ (stateAfter n _) = .scanSync1 from operationOf_scanning_sync1] at run
    cases run; rfl
  | [_] =>
    obtain ⟨rfl, -⟩ : v = 0x62 ∧ _ := List.cons.inj (List.cons.inj frame).2
    rw [st, show operationOf _ (stateAfter n _) = .trlSync2 from operationOf_trailer_sync2] at run
    cases run; rfl
  | [_, _] | [_, _, _] | [_, _, _, _] => rw [st] at run; cases run; rfl
  | [x, y, c', i', l] =>
    simp only [wireFrame, coveredBytes, List.cons_append, List.nil_append, List.cons.injEq] at frame
    obtain ⟨-, -, rfl, rfl, rfl, rfl, -⟩ := frame
    rw [next_of_lengthHigh st body (acceptable le_rfl) takes run]
    change _ = if 0 < n.toNat then DecState.accumulatingPayload else if 0 = n.toNat then _ else _
    by_cases zero : n = 0
    · subst zero; rfl
    · have positive : 0 < n.toNat := Nat.pos_of_ne_zero (mt (BitVec.eq_of_toNat_eq (y := 0)) zero)
      rw [if_neg zero, if_pos positive]
  | x :: y :: c' :: i' :: l :: h :: q =>
    obtain ⟨length, -, -⟩ := acceptable (by simp)
    simp only [wireFrame, List.cons_append, List.nil_append, List.cons.injEq] at frame
    obtain ⟨-, -, frame⟩ := frame
    have place : q.length + 1 + rest.length = n.toNat + 2 := by
      have lengths := congrArg List.length frame
      simp only [List.length_append, List.length_cons, List.length_nil, coveredBytes_length] at lengths
      omega
    have short : q.length ≤ n.toNat := by
      have := List.length_pos_of_ne_nil more
      omega
    change t.st = stateAfter n ((q.length + 1) + 6)
    have here : s.st = stateAfter n (q.length + 6) := st
    rcases Nat.lt_or_eq_of_le short with filling | full
    · have header : bodySoFar s ++ v :: rest = coveredBytes c i n (p ++ [a, b]) := by
        rw [body, coveredBytes, ← List.append_assoc]; exact frame
      rw [next_of_payload (here.trans (if_pos filling)) header takes run, body, stateAfter]
      simp only [List.drop_succ_cons, List.drop_zero, List.length_cons]
      rcases eq_or_ne (q.length + 1) n.toNat with last | further
      · rw [if_pos (by omega), if_neg (by omega), if_pos last]
      · rw [if_neg (by omega), if_pos (by omega)]
    · rw [here.trans ((if_neg (Nat.not_lt.mpr full.ge)).trans (if_pos full))] at run
      cases run
      rw [stateAfter, if_neg (by omega), if_neg (by omega)]

/-- A byte of a frame that is not its last is taken in silence, and joins the body. -/
theorem within_next {s u t : State} {c i : U8} {n : U16} {p : List U8} {a b v : U8} {taken rest : List U8} (inv : Invariant s)
    (within : Within s n taken) (frame : taken ++ v :: rest = wireFrame c i n p a b) (more : rest ≠ [])
    (acceptable : 5 ≤ taken.length → Acceptable s c i n p) (takes : Takes s (.byte v) u)
    (run : exec (operationOf (.byte v) s.st) u = .next t) :
    Within t n (taken ++ [v]) ∧ t.event = none ∧ t.pos = u.pos ∧ t.replay = u.replay ∧ t.inputs = u.inputs := by
  have st : t.st = stateAfter n (taken ++ [v]).length := by
    rw [List.length_append]
    exact next_stateAfter within frame more acceptable takes run
  rcases Nat.lt_or_ge taken.length 2 with syncing | synced
  · have idle : s.st.inBody = false := by
      rw [within.st]
      match taken.length, syncing with
      | 0, _ | 1, _ => rfl
    obtain ⟨⟨-, -, inputs, -, replay, pos, silent⟩, -, empty⟩ := idle_byte idle takes.event run
    have noBody : (taken ++ [v]).drop 2 = [] := by
      rw [List.drop_eq_nil_iff, List.length_append]
      exact Nat.succ_le_of_lt syncing
    exact ⟨⟨st, empty.trans noBody.symm⟩, silent, pos, replay, inputs⟩
  · have body : s.st.inBody = true := by rw [within.st]; exact stateAfter_inBody synced
    have stays : t.st.inBody = true := by
      rw [st, List.length_append]
      exact stateAfter_inBody (synced.trans (Nat.le_add_right _ _))
    obtain ⟨⟨-, -, inputs, -⟩, outcome⟩ := body_byte inv body takes.frame takes.event run
    rcases outcome with ⟨-, grown, replay, pos, silent, -⟩ | ⟨scanning, -⟩ | ⟨scanning, -⟩
    · have longer : bodySoFar t = (taken ++ [v]).drop 2 := by
        rw [grown, within.body, List.drop_append_of_le_length synced]
      exact ⟨⟨st, longer⟩, silent, pos, replay, inputs⟩
    · rw [scanning] at stays; cases stays
    · rw [scanning] at stays; cases stays

/-- Any part of a frame that leaves out its last byte is taken in silence. -/
theorem feeds_frame {c i : U8} {n : U16} {p : List U8} {a b : U8} {l : List U8} :
    ∀ {s : State} {taken rest m r : List U8} {ins : List Symbol}, Invariant s → PinReleased s → Within s n taken →
      taken ++ l ++ rest = wireFrame c i n p a b → rest ≠ [] → (6 ≤ (taken ++ l).length → Acceptable s c i n p) →
      Coming s (l ++ m) r ins → ∃ t, Feeds s l t ∧ Within t n (taken ++ l) ∧ Coming t m r ins := by
  induction l with
  | nil =>
    intro s taken rest m r ins inv released within _ _ _ coming
    exact ⟨s, .refl inv released, (List.append_nil taken).symm ▸ within, coming⟩
  | cons v l ih =>
    intro s taken rest m r ins inv released within frame more acceptable coming
    obtain ⟨u, takes, left⟩ := coming.takes
    obtain ⟨t, run⟩ := exec_next (operationOf (.byte v) s.st) u
    have frame' : taken ++ v :: (l ++ rest) = wireFrame c i n p a b := by simpa using frame
    have later : l ++ rest ≠ [] := List.append_ne_nil_of_right_ne_nil l more
    have acceptable' : 5 ≤ taken.length → Acceptable s c i n p := fun complete =>
      acceptable (by rw [List.length_append, List.length_cons]; omega)
    obtain ⟨within', silent, pos, replay, inputs⟩ := within_next inv within frame' later acceptable' takes run
    have first := feeds_of_step inv released takes run silent pos
    have regroup : taken ++ [v] ++ l = taken ++ v :: l := by simp
    obtain ⟨w, rest', within'', coming'⟩ := ih (s := t) (taken := taken ++ [v]) first.invariant first.released within'
      (by rw [regroup]; exact frame) more
      (fun complete => by rw [regroup] at complete; rw [Acceptable, first.maxlen, first.config]; exact acceptable complete)
      (left.congr replay inputs)
    exact ⟨w, first.trans rest', regroup ▸ within'', coming'⟩

theorem within_of_scanning {s : State} {n : U16} (scanning : s.st = .scanningForSync) : Within s n [] :=
  ⟨scanning, bodySoFar_of_scanning scanning⟩

/-- A position reached from another by `n` bytes, as the number it is. -/
theorem pos_eq_of_modEq {s t : State} {n : Nat} (inv : Invariant t) (config : t.config = s.config)
    (pos : t.pos ≡ s.pos + n [MOD posMod s.config]) : t.pos = (s.pos + n) % 2 ^ s.config.posW := by
  have below : t.pos < posMod s.config := config ▸ inv.posBound
  exact (Nat.mod_eq_of_lt below).symm.trans pos

/-! ### A frame cut off -/

/-- Settles O51: the part of the frame is taken in silence, and `Flush` ends whatever frame is in progress. -/
theorem truncatedFrameEmitsNothing : Obligations.TruncatedFrameEmitsNothing := by
  intro s c i n p a b k rest inv idle released acceptable cut inputs
  obtain ⟨scanning, -, empty⟩ := idle
  have more : (wireFrame c i n p a b).drop k ≠ [] := by
    rw [Ne, List.drop_eq_nil_iff, wireFrame_length]
    exact Nat.not_le.mpr cut
  obtain ⟨t, feeds, -, coming⟩ := feeds_frame (l := (wireFrame c i n p a b).take k) (m := []) inv released
    (within_of_scanning scanning) (List.take_append_drop k _) more (fun _ => acceptable)
    (coming_of_inputs (ins := .flush :: rest) empty (by rw [List.append_nil]; exact inputs))
  have length : ((wireFrame c i n p a b).take k).length = k := by
    rw [List.length_take, wireFrame_length, min_eq_left cut.le]
  obtain ⟨noReplay, flush⟩ := coming.done
  have takes : Takes t .flush _ := .input noReplay flush
  have last : step t = .next (endFrame { beginStep t with inputs := rest }) :=
    step_of_takes (pinNow_of_pinReleased feeds.released) takes
  have run := runEvents_add feeds.run (runEvents_succ (k := 0).mpr ⟨_, [], last, rfl, rfl⟩)
  rw [length] at run
  exact ⟨_, run, ⟨rfl, endFrame_clear _, noReplay⟩, rfl⟩

/-! ### A frame rejected on its header -/

/-- The sixth byte of a frame completes the header the verdict is on. -/
theorem header_to_verdict {s : State} {c i : U8} {n : U16} {rest : List Symbol} (inv : Invariant s) (idle : Idle s)
    (released : PinReleased s) (inputs : s.inputs = [0xB5, 0x62, c, i, lo n, hi n].map Symbol.byte ++ rest) :
    ∃ w, (w.cls = c ∧ w.id = i ∧ w.len = n) ∧ Unallocated w ∧ w.maxlen = s.maxlen ∧ w.config = s.config ∧
      w.pos = (s.pos + 6) % 2 ^ s.config.posW ∧ w.replay = [] ∧ w.inputs = rest ∧
      ∀ t, exec (verdict w).operation w = .next t → runEvents 6 s = some (t, t.event.toList) := by
  obtain ⟨scanning, -, empty⟩ := idle
  have frame : [] ++ [0xB5, 0x62, c, i, lo n] ++ [hi n, 0, 0] = wireFrame c i n [] 0 0 := rfl
  obtain ⟨t, feeds, within, coming⟩ := feeds_frame (m := [hi n]) inv released (within_of_scanning scanning) frame
    (List.cons_ne_nil _ _) (fun long => absurd long (by simp)) (coming_of_inputs empty inputs)
  obtain ⟨u, takes, left⟩ := coming.takes
  obtain ⟨noReplay, after⟩ := left.done
  have st : t.st = .expectLengthHigh := within.st
  have header := header_of_lengthHigh st within.body takes rfl
  obtain ⟨rxck, pwp, payv⟩ := feeds.invariant.unallocated (by rw [st]; rfl)
  have pos : u.pos ≡ s.pos + 6 [MOD posMod s.config] := by
    rw [takes.byte_pos, feeds.config]
    exact (Nat.mod_modEq _ _).trans (feeds.pos.add_right 1)
  have below : u.pos < posMod s.config := feeds.config ▸ takes.byte_posBound
  refine ⟨_, header, ⟨takes.rxck.trans rxck, takes.pwp.trans pwp, takes.payv.trans payv⟩, takes.maxlen.trans feeds.maxlen,
    takes.config.trans feeds.config, (Nat.mod_eq_of_lt below).symm.trans pos, noReplay, after, fun w run => ?_⟩
  have last : step t = .next w := by
    rw [step_of_takes (pinNow_of_pinReleased feeds.released) takes, st]
    exact (exec_fldLenhi rfl).trans run
  simpa using runEvents_add feeds.run (runEvents_succ (k := 0).mpr ⟨w, [], last, rfl, rfl⟩)

/-- Settles O48: the verdict on the completed header is the first or the third, whose report ends the frame. -/
theorem rejectedHeaderIsReportedOnce : Obligations.RejectedHeaderIsReportedOnce := by
  intro s c i n rest inv idle released inputs
  obtain ⟨w, ⟨cls, id, len⟩, fresh, maxlen, config, pos, noReplay, after, run⟩ := header_to_verdict inv idle released inputs
  have record := snap_of_unallocated fresh
  rw [cls, id, len] at record
  refine ⟨fun exceeds => ?large, fun fits nonzero e entry differs => ?wrong⟩
  case large =>
    have large : w.maxlen ≠ 0 ∧ w.maxlen.toNat < w.len.toNat := by
      rw [maxlen, len]
      rw [lmax] at exceeds
      split_ifs at exceeds with unlimited
      · exact absurd n.isLt (Nat.not_lt.mpr exceeds)
      · exact ⟨unlimited, exceeds⟩
    have events := run _ (by rw [verdict_eq_tooLarge large]; exact exec_vTooLarge w)
    rw [record, maxlen] at events
    exact ⟨_, events, ⟨rfl, ⟨rfl, rfl, rfl, rfl, rfl, rfl, rfl, rfl⟩, noReplay⟩, after, pos⟩
  case wrong =>
    have fits' : ¬(w.maxlen ≠ 0 ∧ w.maxlen.toNat < w.len.toNat) := not_tooLarge_of_le (by rw [len, maxlen]; exact fits)
    have wrong : wrongLen w = some e := wrongLen_eq_some.mpr ⟨by rw [config, cls, id]; exact entry, len ▸ differs.symm⟩
    have events := run _ (by rw [verdict_eq_wrongLen fits' (len ▸ nonzero) wrong]; exact exec_vWrongLen e w)
    rw [record] at events
    exact ⟨_, events, ⟨rfl, ⟨rfl, rfl, rfl, rfl, rfl, rfl, rfl, rfl⟩, noReplay⟩, after, pos⟩

end Sys2Proof.Machine
end

section
/-! Whole frames (43_checksum.md R155 to R157, 44_recovery.md R165 to R168, R174): the state in which the last byte is compared, the three
outcomes there, and a frame found again inside a failed one. -/

namespace Sys2Proof.Machine

open Sys2Proof

/-- `w` holds a whole frame: the header, the payload, the received checksum, and the sums of what the checksum covers. -/
structure Complete (w : State) (c i : U8) (n : U16) (p : List U8) (a b : U8) : Prop where
  cls : w.cls = c
  id : w.id = i
  len : w.len = n
  present : w.payv = true
  filled : w.pwp = w.len
  bytes : Memory.prefixBytes w.pay w.len.toNat = p
  rxck : w.rxck = combine a b
  sums : (w.cka, w.ckb) = ck (coveredBytes c i n p)

section

variable {s w : State} {c i : U8} {n : U16} {p : List U8} {a b : U8}

/-- With all but the last checksum byte in the body, that byte completes the frame. -/
theorem complete_of_body {u : State} (inv : Invariant s) (last : s.st = .expectChecksumHigh)
    (body : bodySoFar s = coveredBytes c i n p ++ [a]) (takes : Takes s (.byte b) u) :
    Complete { u with rxck := setHi u.rxck b } c i n p a b := by
  have split : coveredSoFar s ++ [lo s.rxck] = coveredBytes c i n p ++ [a] := by
    rw [← body, bodySoFar, last]
  obtain ⟨covered, low⟩ := List.append_inj' split rfl
  have header : bodySoFar s ++ [] = coveredBytes c i n (p ++ [a]) := by
    rw [body, List.append_nil, coveredBytes, coveredBytes, List.append_assoc]
  obtain ⟨cls, id, len⟩ := header_of_body (by rw [last]; rfl) header
  obtain ⟨present, -⟩ := inv.allocated (by rw [last]; rfl)
  refine ⟨takes.cls.trans cls, takes.id.trans id, takes.len.trans len, takes.payv.trans present,
    takes.pwp.trans ((inv.pwpDone (.inr last)).trans takes.len.symm), ?bytes, ?rxck, ?sums⟩
  case bytes =>
    simp only [coveredSoFar, last, headerBytes, coveredBytes, cls, id, len] at covered
    change Memory.prefixBytes u.pay u.len.toNat = p
    rw [takes.pay, takes.len, len]
    exact List.append_cancel_left covered
  case rxck =>
    change setHi u.rxck b = combine a b
    rw [setHi, takes.rxck, List.cons.inj low |>.1]
  case sums =>
    change (u.cka, u.ckb) = _
    rw [takes.cka, takes.ckb, inv.sums, covered]

/-- A frame the validator lets through comes to the comparison of its checksum on its last byte. -/
theorem frame_to_outcome {r : List U8} {ins : List Symbol} (inv : Invariant s) (scanning : s.st = .scanningForSync)
    (released : PinReleased s) (acceptable : Acceptable s c i n p) (coming : Coming s (wireFrame c i n p a b) r ins) :
    ∃ w, Complete w c i n p a b ∧ w.maxlen = s.maxlen ∧ w.config = s.config ∧
      w.pos ≡ s.pos + (p.length + 8) [MOD posMod s.config] ∧ w.replay = r ∧ w.inputs = ins ∧
      ∀ t, exec (ckOutcome w).operation w = .next t →
        runEvents (p.length + 8) s = some (t, t.event.toList) ∧ Invariant t ∧ PinReleased t := by
  have frame : [] ++ ([0xB5, 0x62] ++ coveredBytes c i n p ++ [a]) ++ [b] = wireFrame c i n p a b := by
    simp [wireFrame]
  have length : ([0xB5, 0x62] ++ coveredBytes c i n p ++ [a]).length = p.length + 7 := by simp
  obtain ⟨t, feeds, within, coming'⟩ := feeds_frame (m := [b]) inv released (within_of_scanning scanning) frame
    (List.cons_ne_nil _ _) (fun _ => acceptable) (by rw [← frame] at coming; exact coming)
  obtain ⟨u, takes, left⟩ := coming'.takes
  obtain ⟨replay, inputs⟩ := left.done
  have last : t.st = .expectChecksumHigh := by
    rw [within.st, List.nil_append, length, acceptable.1]
    change stateAfter n ((n.toNat + 1) + 6) = _
    rw [stateAfter, if_neg (by omega), if_neg (by omega)]
  have body : bodySoFar t = coveredBytes c i n p ++ [a] := within.body
  refine ⟨_, complete_of_body feeds.invariant last body takes, takes.maxlen.trans feeds.maxlen,
    takes.config.trans feeds.config, ?pos, replay, inputs, fun v run => ?run⟩
  case pos =>
    change u.pos ≡ _ [MOD _]
    rw [takes.byte_pos, feeds.config]
    have before := feeds.pos
    rw [length] at before
    exact (Nat.mod_modEq _ _).trans (before.add_right 1)
  case run =>
    have now : pinNow t = none := pinNow_of_pinReleased feeds.released
    have comparison : step t = .next v := by
      rw [step_of_takes now takes, last]
      exact (exec_fldCkhi rfl).trans run
    have events := runEvents_add feeds.run (runEvents_succ (k := 0).mpr ⟨v, [], comparison, rfl, rfl⟩)
    rw [length] at events
    exact ⟨by simpa using events, step_invariant feeds.invariant comparison, step_pinReleased feeds.released comparison⟩

/-! ### The outcomes of a complete frame -/

theorem combine_inj {a b a' b' : U8} (same : combine a b = combine a' b') : a = a' ∧ b = b' :=
  ⟨by rw [← lo_combine a b, same, lo_combine], by rw [← hi_combine a b, same, hi_combine]⟩

theorem Complete.matches_iff (complete : Complete w c i n p a b) :
    combine w.cka w.ckb = w.rxck ↔ ck (coveredBytes c i n p) = (a, b) := by
  rw [complete.rxck, ← complete.sums, Prod.mk.injEq]
  exact ⟨combine_inj, fun ⟨first, second⟩ => by rw [first, second]⟩

theorem Complete.snap (complete : Complete w c i n p a b) :
    snap w = { cls := c, id := i, length := n, payload := some p, receivedChecksum := combine a b } := by
  rw [snap_of_complete complete.present complete.filled, complete.cls, complete.id, complete.bytes, complete.len,
    complete.rxck]

theorem Complete.frameBody (complete : Complete w c i n p a b) : frameBody w = coveredBytes c i n p ++ [a, b] := by
  rw [Machine.frameBody, headerBytes, complete.bytes, complete.cls, complete.id, complete.len, complete.rxck, lo_combine,
    hi_combine, coveredBytes]

theorem Complete.computed (complete : Complete w c i n p a b) : computedChecksum w = fletcher16 (coveredBytes c i n p) := by
  rw [fletcher16, ← complete.sums, computedChecksum]

theorem clear_after_raise (e : Event) (v : State) : (raise e v).st = .scanningForSync ∧ FrameClear (raise e v) :=
  ⟨raise_st e v, raise_clear e v⟩

/-- A good frame with a payload gives its packet (43_checksum.md R155), wherever its bytes come from. -/
theorem packet_of_frame {r : List U8} {ins : List Symbol} (inv : Invariant s) (scanning : s.st = .scanningForSync)
    (released : PinReleased s) (nonempty : p ≠ []) (acceptable : Acceptable s c i (BitVec.ofNat 16 p.length) p)
    (coming : Coming s (goodFrame c i p) r ins) :
    ∃ t, runEvents (p.length + 8) s = some (t, [.packet c i p]) ∧ (t.st = .scanningForSync ∧ FrameClear t) ∧
      t.replay = r ∧ t.inputs = ins ∧ t.maxlen = s.maxlen ∧ t.config = s.config ∧
      t.pos = (s.pos + (p.length + 8)) % 2 ^ s.config.posW := by
  obtain ⟨w, complete, maxlen, config, pos, replay, inputs, run⟩ :=
    frame_to_outcome inv scanning released acceptable coming
  have nonzero : w.len ≠ 0 := by
    rw [complete.len]
    intro zero
    have length := acceptable.1
    rw [zero] at length
    exact nonempty (List.eq_nil_of_length_eq_zero length)
  have outcome := ckOutcome_eq_packet (complete.matches_iff.mpr rfl) nonzero
  obtain ⟨events, inv', -⟩ := run _ (by rw [outcome]; exact exec_ckPacket w)
  rw [complete.cls, complete.id, complete.bytes] at events inv'
  exact ⟨_, events, ⟨rfl, rfl, rfl, rfl, rfl, rfl, rfl, rfl, rfl⟩, replay, inputs, maxlen, config,
    pos_eq_of_modEq inv' config pos⟩

/-- A frame with a wrong checksum: the report, the body in front of what is left of REPLAY, and POS back at the class byte. -/
theorem failure_of_frame {r : List U8} {ins : List Symbol} (inv : Invariant s) (scanning : s.st = .scanningForSync)
    (released : PinReleased s) (acceptable : Acceptable s c i n p) (wrong : ck (coveredBytes c i n p) ≠ (a, b))
    (coming : Coming s (wireFrame c i n p a b) r ins) :
    ∃ t, runEvents (p.length + 8) s = some (t, [.failedChecksum
        { cls := c, id := i, length := n, payload := some p, receivedChecksum := combine a b }
        (fletcher16 (coveredBytes c i n p))]) ∧
      t.replay = coveredBytes c i n p ++ [a, b] ++ r ∧ t.inputs = ins ∧ (t.st = .scanningForSync ∧ FrameClear t) ∧
      t.pos = (s.pos + 2) % 2 ^ s.config.posW ∧ (t.maxlen = s.maxlen ∧ t.config = s.config) ∧ Invariant t ∧
      PinReleased t := by
  obtain ⟨w, complete, maxlen, config, pos, replay, inputs, run⟩ :=
    frame_to_outcome inv scanning released acceptable coming
  have outcome := ckOutcome_eq_mismatch (mt complete.matches_iff.mp wrong)
  have mismatch := exec_ckMismatch w
  obtain ⟨events, inv', released'⟩ := run _ (by rw [outcome]; exact mismatch)
  have back := (ckMismatch_putsBack mismatch).1
  rw [complete.snap, complete.computed, complete.frameBody] at events inv' released'
  rw [complete.snap, complete.computed, complete.frameBody, config] at back
  refine ⟨_, events, by rw [raise_replay, reinjectBytes_replay, replay], inputs, clear_after_raise _ _,
    pos_eq_of_modEq inv' config ?_, ⟨maxlen, config⟩, inv', released'⟩
  have length : (coveredBytes c i n p ++ [a, b]).length = p.length + 6 := by simp
  rw [length] at back
  have onward := Nat.ModEq.trans back pos
  rw [show s.pos + (p.length + 8) = s.pos + 2 + (p.length + 6) by omega] at onward
  exact Nat.ModEq.add_right_cancel' _ onward

end

/-! ### The statements -/

/-- Settles O46: the sums of a good frame are its checksum bytes, so its outcome is the packet. -/
theorem goodFrameGivesItsPacket : Obligations.GoodFrameGivesItsPacket := by
  intro s c i p rest inv idle released nonempty acceptable inputs
  obtain ⟨scanning, -, empty⟩ := idle
  obtain ⟨t, run, ⟨scanning', clear⟩, replay, inputs', frame⟩ :=
    packet_of_frame inv scanning released nonempty acceptable (coming_of_inputs empty inputs)
  exact ⟨t, run, ⟨scanning', clear, replay⟩, inputs', frame⟩

/-- Settles O47: a length of 0 is at most every maximum and asks the table nothing, and its outcome is the polling message. -/
theorem emptyFrameGivesPollingMessage : Obligations.EmptyFrameGivesPollingMessage := by
  intro s c i rest inv idle released inputs
  obtain ⟨scanning, -, empty⟩ := idle
  have acceptable : Acceptable s c i 0 [] := ⟨rfl, Nat.zero_le _, fun nonzero => absurd rfl nonzero⟩
  obtain ⟨w, complete, -, -, -, replay, inputs', run⟩ :=
    frame_to_outcome inv scanning released acceptable (coming_of_inputs empty inputs)
  have outcome := ckOutcome_eq_poll (complete.matches_iff.mpr rfl) complete.len
  obtain ⟨events, -⟩ := run _ (by rw [outcome]; exact exec_ckPoll w)
  rw [complete.snap] at events
  exact ⟨_, events, ⟨rfl, ⟨rfl, rfl, rfl, rfl, rfl, rfl, rfl, rfl⟩, replay⟩, inputs'⟩

/-- Settles O49: the outcome is the mismatch, which reads the whole frame from the registers. -/
theorem badFrameIsReportedAndRewound : Obligations.BadFrameIsReportedAndRewound := by
  intro s c i n p a b rest inv idle released acceptable wrong inputs
  obtain ⟨scanning, -, empty⟩ := idle
  obtain ⟨t, run, replay, inputs', ⟨scanning', clear⟩, pos, -⟩ :=
    failure_of_frame inv scanning released acceptable wrong (coming_of_inputs empty inputs)
  exact ⟨t, run, replay.trans (List.append_nil _), inputs', scanning', clear, pos⟩

/-- Settles O50: the failed frame's body is scanned next; the bytes before the inner frame are discarded, and its own give its packet. -/
theorem embeddedFrameIsRecovered : Obligations.EmbeddedFrameIsRecovered := by
  intro s c i n before after c' i' p a b rest inv idle released nonempty inner outer wrong others inputs
  obtain ⟨scanning, -, empty⟩ := idle
  obtain ⟨t, failed, replay, inputs', ⟨scanning', -⟩, -, ⟨maxlen, config⟩, inv', released'⟩ :=
    failure_of_frame inv scanning released outer wrong (coming_of_inputs empty inputs)
  have body : t.replay = ([c, i, lo n, hi n] ++ before) ++ (goodFrame c' i' p ++ (after ++ [a, b])) := by
    rw [replay]; simp [coveredBytes]
  obtain ⟨u, skipped, scanning'', left⟩ := feeds_skip (m := goodFrame c' i' p) (r := after ++ [a, b]) (ins := rest)
    inv' released' scanning' others (.inl ⟨by rw [body]; simp, inputs'⟩)
  have inner' : Acceptable u c' i' (BitVec.ofNat 16 p.length) p := by
    rw [Acceptable, skipped.maxlen, skipped.config, maxlen, config]; exact inner
  obtain ⟨v, found, ⟨idleAgain, clear⟩, replay', untouched, -⟩ :=
    packet_of_frame skipped.invariant scanning'' skipped.released nonempty inner' left
  exact ⟨v, _, _, _, runEvents_add failed (runEvents_add skipped.run found), replay', untouched, idleAgain, clear⟩

end Sys2Proof.Machine
end
